-- ==== Sys2Proof/Word.lean ====
section
/-! DEFINITION. The words of the block's two input ports (30_encoding.md R45, R46, R50, R51) and the byte. -/

namespace Sys2Proof

/-- A byte: 8 bits, unsigned (00_scope.md R9). -/
abbrev Byte := BitVec 8

/-- A command word on the command port, 8 bits (30_encoding.md R46). -/
abbrev CommandWord := BitVec 8

/-- A receive word from the byte source, 9 bits: bit 8 is TIMEOUT, bits 7:0 the data (30_encoding.md R50). -/
abbrev ReceiveWord := BitVec 9

/-- One encoded input event (30_encoding.md R45, R52): the port it arrives on and, where the port has one, its word.
The two pins carry no fields (R51): a pin that is 1 is the event. -/
inductive InputWord where
  /-- a command word offered on the command port -/
  | cmd (w : CommandWord)
  /-- a receive word offered by the byte source -/
  | rx (w : ReceiveWord)
  /-- the time base's pin is 1 -/
  | tick
  /-- the reset pin is 1 -/
  | rst
  deriving DecidableEq, Repr

end Sys2Proof
end

