-- ==== Sys2Proof/Syntax.lean ====
section
/-! DEFINITION. The block's instruction set: its nine input events (30_encoding.md R52), one constructor per row of
spec/opcode_table.json. -/

namespace Sys2Proof

/-- An input event of the block (00_scope.md R2, 30_encoding.md R52). -/
inductive Instr where
  /-- NOP (45_session_commands.md R122) -/
  | nop
  /-- START(cal): run the calibration sequence or skip it (45_session_commands.md R123) -/
  | start (cal : Bool)
  /-- READ (45_session_commands.md R124, R125) -/
  | read
  /-- STOP (45_session_commands.md R126) -/
  | stop
  /-- RATE_RESTART (45_session_commands.md R127) -/
  | rateRestart
  /-- BYTE(b): the byte source offers the byte `b` (40_frame_assembler.md R66) -/
  | byte (b : Byte)
  /-- TIMEOUT (40_frame_assembler.md R70) -/
  | timeout
  /-- TICK (44_rate_estimator.md R110) -/
  | tick
  /-- RESET (70_reset_and_hazards.md R156) -/
  | reset
  deriving DecidableEq, Repr

end Sys2Proof
end

