-- ==== Sys2Proof/WellFormed.lean ====
section
/-! DEFINITION. Which input words are well formed (30_encoding.md R48, R50, R51).

The operands of `Instr` are typed at exactly the width their encoding gives them (one bit of START, eight bits of
BYTE), so no ill-formed instruction can be written down. What can be ill formed is a COMMAND WORD: 250 of the 256
are reserved. The three checks of R48 stand here one by one. -/

namespace Sys2Proof

/-- R48, first condition: `w[7:4] = 0`. -/
def commandZeroField (w : CommandWord) : Bool := w.extractLsb' 4 4 == 0#4

/-- R48, second condition: `w[2:0] <= 4`. -/
def commandOpAssigned (w : CommandWord) : Bool := (w.extractLsb' 0 3).toNat ≤ 4

/-- R48, third condition: `w[3] = 0` or `w[2:0] = 1`. -/
def commandCalAllowed (w : CommandWord) : Bool := !w.getLsbD 3 || w.extractLsb' 0 3 == 1#3

/-- A command word is well formed iff all three conditions of R48 hold. -/
def commandWellFormed (w : CommandWord) : Bool :=
  commandZeroField w && commandOpAssigned w && commandCalAllowed w

/-- Every receive word is legal (R50) and the pins have no fields (R51), so only a command word can be ill formed. -/
def inputWellFormed : InputWord → Bool
  | .cmd w => commandWellFormed w
  | .rx _ => true
  | .tick => true
  | .rst => true

end Sys2Proof
end

