-- ==== Sys2Proof/Decode.lean ====
section
/-! DEFINITION. Decoding an encoded input event to an instruction, total on every input word and rejecting by name
(30_encoding.md R45 to R52, 45_session_commands.md R121), and the encoder. -/

namespace Sys2Proof

/-- Why an input word is no instruction. -/
inductive DecodeError where
  /-- A reserved command word (30_encoding.md R48). Not a stop: the block refuses the word with the response
  FATAL_BAD_CMD and goes on (45_session_commands.md R121). -/
  | reservedCommand (w : CommandWord)
  deriving DecidableEq, Repr

/-- A decoded input word or the reason it is none. -/
inductive Decoded where
  | instr (i : Instr)
  | rejected (e : DecodeError)
  deriving DecidableEq, Repr

/-- `w[2:0]`, the opcode field of a command word (30_encoding.md R46). -/
def commandOp (w : CommandWord) : BitVec 3 := w.extractLsb' 0 3

/-- 45_session_commands.md R121: first the well-formedness test of 30_encoding.md R48, then the dispatch on the
opcode of 30_encoding.md R47. -/
def decodeCommand (w : CommandWord) : Decoded :=
  let op := (commandOp w).toNat
  if w.extractLsb' 4 4 ≠ 0#4 ∨ 4 < op ∨ (w.getLsbD 3 = true ∧ op ≠ 1) then
    .rejected (.reservedCommand w)
  else
    match op with
    | 0 => .instr .nop
    | 1 => .instr (.start (w.getLsbD 3))
    | 2 => .instr .read
    | 3 => .instr .stop
    | 4 => .instr .rateRestart
    | _ => .rejected (.reservedCommand w)

/-- 30_encoding.md R50: bit 8 tells TIMEOUT from BYTE; the data bits of a TIMEOUT are ignored. -/
def decodeReceive (w : ReceiveWord) : Instr :=
  if w.getLsbD 8 then .timeout else .byte (w.extractLsb' 0 8)

/-- The instruction an input word stands for (30_encoding.md R52). -/
def decode : InputWord → Decoded
  | .cmd w => decodeCommand w
  | .rx w => .instr (decodeReceive w)
  | .tick => .instr .tick
  | .rst => .instr .reset

/-- The command word `0000 cal op` (30_encoding.md R46). -/
def commandWord (cal : Bool) (op : BitVec 3) : CommandWord := 0#4 ++ (BitVec.ofBool cal ++ op)

/-- The receive word `t d` (30_encoding.md R50). -/
def receiveWord (t : Bool) (d : Byte) : ReceiveWord := BitVec.ofBool t ++ d

/-- The input word of an instruction (30_encoding.md R47, R50, R51). Of the 256 words of TIMEOUT it gives the one
with data bits 0. -/
def encode : Instr → InputWord
  | .nop => .cmd (commandWord false 0#3)
  | .start cal => .cmd (commandWord cal 1#3)
  | .read => .cmd (commandWord false 2#3)
  | .stop => .cmd (commandWord false 3#3)
  | .rateRestart => .cmd (commandWord false 4#3)
  | .byte b => .rx (receiveWord false b)
  | .timeout => .rx (receiveWord true 0#8)
  | .tick => .tick
  | .reset => .rst

/-- The input word that a bare number stands for, when only its bits are given. spec/opcode_table.json numbers the
bits inside a port's word and not the port, so the port is taken from the width: 8 bits the command port, 9 bits (16
in whole bytes) the receive port, 1 bit a pin. TICK and RESET have the same word `1` on two different pins, and in
whole bytes it is START's word too: the bare number cannot tell them apart. DESIGN CHOICE, safe (nothing in `step`
uses this function): log entry 3. -/
def tableInput (nbits w : Nat) : Option InputWord :=
  if nbits = 1 then
    if w = 1 then some .tick else none
  else if nbits = 8 then
    if w < 256 then some (.cmd (BitVec.ofNat 8 w)) else none
  else if nbits = 9 ∨ nbits = 16 then
    if w < 512 then some (.rx (BitVec.ofNat 9 w)) else none
  else none

/-- The instruction the decoder reads from a bare number of the opcode table (log entry 3). -/
def decodeTableWord (nbits w : Nat) : Option Instr :=
  match tableInput nbits w with
  | none => none
  | some x =>
    match decode x with
    | .instr i => some i
    | .rejected _ => none

end Sys2Proof
end

