-- ==== Sys2Proof/Config.lean ====
section
/-! DEFINITION. The constants the source fixes (00_scope.md R5) and the parameters it leaves open, at the values the
spec takes (00_scope.md R6, 92_eei_decisions.md "Open parameters in one place"). They are no state (10_state.md R10).
The widths TW = 64, CW = 32, FW = 64, ZW = 16 and OW = 18 of R6 stand in the types of the fields of `Block` and
`Response`. -/

namespace Sys2Proof

/-- ROUND_TIES (00_scope.md R6, 42_sample_decoder.md R90): what `rdiv` does when the remainder is exactly half the
divisor. -/
inductive RoundTies where
  | halfEven
  | halfAway
  | halfUp
  deriving DecidableEq, Repr

namespace Config

/-- MARKER0 (R5). -/
def marker0 : Byte := 0x20#8
/-- MARKER1 (R5). -/
def marker1 : Byte := 0x4E#8
/-- CRC_COVER (R5): the CRC covers frame bytes 0 to 13 (90_conflicts.md C1). -/
def crcCover : Nat := 14
/-- FORCE_DIV (R5): raw force counts per newton. -/
def forceDiv : Int := 100
/-- TORQUE_DIV (R5): raw torque counts per newton-metre. -/
def torqueDiv : Int := 1000

/-- TICK_HZ (R6). DESIGN CHOICE, unsafe for a block built with another tick rate: log entry 5. -/
def tickHz : Nat := 1000000
/-- ROUND_TIES (R6). DESIGN CHOICE, unsafe for a block built with another tie rule: log entry 5. -/
def roundTies : RoundTies := .halfEven
/-- CRC_POLY_REFLECTED (R6). PRESUMED by the spec itself (93_implementation_defined.md G1), unsafe: log entry 6. -/
def crcPolyReflected : BitVec 16 := 0xA001#16
/-- CRC_INIT (R6). PRESUMED, unsafe: log entry 6. -/
def crcInit : BitVec 16 := 0xFFFF#16
/-- CRC_XOROUT (R6). PRESUMED, unsafe: log entry 6. -/
def crcXorOut : BitVec 16 := 0x0000#16

end Config

end Sys2Proof
end

