-- ==== Sys2Proof/Machine/State.lean ====
section
/-! DEFINITION. The state of the block (10_state.md R10 to R25), the response (30_encoding.md R55) and what stops a
run. `Block` is the product of exactly the eight items of R10; `State` adds the two ports of the model's closed step. -/

namespace Sys2Proof.Machine

/-- SESS, six values and no others (10_state.md R11). -/
inductive Sess where
  | idle
  | calDiscard
  | calCapture
  | ready
  | reading
  | stopped
  deriving DecidableEq, Repr

/-- The source's three session states, which R11 and 45_session_commands.md R130 split into six. -/
inductive SourceState where
  | idle
  | started
  | stopped
  deriving DecidableEq, Repr

/-- The named status codes of a response (60_exceptions.md R137). -/
inductive Status where
  | ok
  | recCrc
  | recTimeout
  | recShort
  | fatalNotActive
  /-- named, never produced by the block (60_exceptions.md R142); only the stand-alone decoder answers it -/
  | fatalMalformed
  | fatalBadState
  | fatalBadCmd
  deriving DecidableEq, Repr

/-- The class of a status, its bits 3:2 (60_exceptions.md R137, 30_encoding.md R57). -/
inductive StatusClass where
  | ok
  | recoverable
  | fatal
  deriving DecidableEq, Repr

/-- A sample: six signed components of OW = 18 bits, in hundredths (30_encoding.md R55). -/
abbrev Sample := Vector (BitVec 18) 6

/-- The zero reference: six signed elements of ZW = 16 bits, in hundredths (10_state.md R15). -/
abbrev ZeroRef := Vector (BitVec 16) 6

/-- The byte window SR (10_state.md R13). -/
abbrev Window := Vector Byte 16

/-- The candidate frame F (20_memory.md R30): a value inside one step, never state (10_state.md R23). -/
abbrev Frame := Vector Byte 16

/-- A response (30_encoding.md R55). -/
structure Response where
  op : BitVec 3
  status : Status
  sample : Sample
  freq : BitVec 64
  deriving DecidableEq, Repr

/-- The outcome of a read (40_frame_assembler.md R69). -/
inductive ReadOutcome where
  | frame (f : Frame)
  | short
  | timeout
  deriving DecidableEq, Repr

/-- The complete architectural state: the eight items of 10_state.md R10. -/
structure Block where
  /-- SESS (R11) -/
  sess : Sess
  /-- CNT (R14) -/
  cnt : BitVec 5
  /-- SR, `sr[15]` the newest byte (R13) -/
  sr : Window
  /-- ZREF (R15) -/
  zref : ZeroRef
  /-- TIME (R16) -/
  time : BitVec 64
  /-- START_T (R17) -/
  startT : BitVec 64
  /-- COUNT (R18) -/
  count : BitVec 32
  /-- FREQ (R19) -/
  freq : BitVec 64
  deriving DecidableEq, Repr

/-- What the spec's `step : State -> Event -> State x Option Response` answers (20_memory.md R41). -/
structure Reaction where
  block : Block
  rsp : Option Response
  deriving DecidableEq, Repr

/-- The machine of `step : State → Outcome`: the block, and the two ports of the environment. -/
structure State where
  /-- the architectural state (10_state.md R10) -/
  block : Block
  /-- MODEL's own field: the response port during the step just taken (30_encoding.md R60); every step rewrites it and
  none reads it, so it is no "last response" register (10_state.md R23). DESIGN CHOICE, safe: log entry 1. -/
  rsp : Option Response
  /-- MODEL's own field: the input events still to come, the first at the head (20_memory.md R41). DESIGN CHOICE, safe:
  log entry 2. -/
  input : List InputWord
  deriving DecidableEq, Repr

/-- What stops the machine with a fault: nothing. The block has no traps and every error is a response after which it
goes on (60_exceptions.md, opening; R149). Safe: an empty type hides no stop. -/
inductive Fault
  deriving DecidableEq, Repr

/-- Why an instruction is refused by the model. -/
inductive Refusal where
  /-- raised by an arm of `exec` whose instruction has no meaning yet (safe); no arm of this model raises it -/
  | notModelled (mnemonic : String)
  deriving DecidableEq, Repr

/-- The values after a RESET event (10_state.md R25, 70_reset_and_hazards.md R156). -/
def Block.reset : Block where
  sess := .idle
  cnt := 0
  sr := Vector.replicate 16 0
  zref := Vector.replicate 6 0
  time := 0
  startT := 0
  count := 0
  freq := 0

/-- The machine right after reset: the block at the values of R25, no response (70_reset_and_hazards.md R156), and no
input event yet (log entry 2). -/
def State.reset : State where
  block := Block.reset
  rsp := none
  input := []

/-- Put a reaction of the block back into the machine. -/
def State.react (s : State) (r : Reaction) : State := { s with block := r.block, rsp := r.rsp }

end Sys2Proof.Machine
end

