-- ==== Sys2Proof/Machine/Flags.lean ====
section
/-! DEFINITION. The block has no status flags and no condition codes (10_state.md R21). What takes their place: the one
predicate that rules test, BUSY (R12), with the two ready outputs made from it, and the numeric codes of SESS and of
the status field (10_state.md R11, 60_exceptions.md R137). -/

namespace Sys2Proof.Machine

/-- BUSY: exactly one read is in flight (10_state.md R12). -/
def busy (b : Block) : Bool :=
  match b.sess with
  | .idle => false
  | .calDiscard => true
  | .calCapture => true
  | .ready => false
  | .reading => true
  | .stopped => false

/-- The output `cmd_ready` (30_encoding.md R60). -/
def cmdReady (b : Block) : Bool := !busy b

/-- The output `rx_ready` (30_encoding.md R60). -/
def rxReady (b : Block) : Bool := busy b

/-- The 3-bit value of SESS (10_state.md R11). -/
def sessCode : Sess → BitVec 3
  | .idle => 0
  | .calDiscard => 1
  | .calCapture => 2
  | .ready => 3
  | .reading => 4
  | .stopped => 5

/-- The source's session state a SESS value belongs to (10_state.md R11, 45_session_commands.md R130). -/
def sourceState : Sess → SourceState
  | .idle => .idle
  | .calDiscard => .idle
  | .calCapture => .idle
  | .ready => .started
  | .reading => .started
  | .stopped => .stopped

/-- The 4-bit code of a status (60_exceptions.md R137). -/
def statusCode : Status → BitVec 4
  | .ok => 0x0
  | .recCrc => 0x4
  | .recTimeout => 0x5
  | .recShort => 0x6
  | .fatalNotActive => 0x8
  | .fatalMalformed => 0x9
  | .fatalBadState => 0xA
  | .fatalBadCmd => 0xB

/-- The class of a status as R137's table gives it; its bits 3:2 say the same. -/
def statusClass : Status → StatusClass
  | .ok => .ok
  | .recCrc => .recoverable
  | .recTimeout => .recoverable
  | .recShort => .recoverable
  | .fatalNotActive => .fatal
  | .fatalMalformed => .fatal
  | .fatalBadState => .fatal
  | .fatalBadCmd => .fatal

/-- The 2-bit class field of a status code (30_encoding.md R57). -/
def classCode : StatusClass → BitVec 2
  | .ok => 0
  | .recoverable => 1
  | .fatal => 2

end Sys2Proof.Machine
end

