-- ==== Sys2Proof/Machine/Operands.lean ====
section
/-! DEFINITION. Operand forms: reading the candidate frame (20_memory.md R30 to R32, 30_encoding.md R54), the opcodes
of responses (30_encoding.md R47), the numbers the registers and responses hold, and the packed response (R56). -/

namespace Sys2Proof.Machine

/-- `MemRead(addr, 1)` (00_scope.md R9, 20_memory.md R31), defined only inside the frame. -/
def memRead1 (F : Frame) (addr : Nat) (h : addr + 1 ≤ 16) : BitVec 8 := F[addr]

/-- `MemRead(addr, 2)`: the byte at the lower offset is the less significant (20_memory.md R32), defined only inside the
frame. -/
def memRead2 (F : Frame) (addr : Nat) (h : addr + 2 ≤ 16) : BitVec 16 := F[addr + 1] ++ F[addr]

/-- `raw[i] = sext_16(MemRead(2 + 2i, 2))` (30_encoding.md R54, 42_sample_decoder.md R88). -/
def rawField (F : Frame) (i : Nat) (h : i < 6) : Int := (memRead2 F (2 + 2 * i) (by omega)).toInt

/-- `crc_field(F) = MemRead(14, 2)` (41_crc_validator.md R82). -/
def crcField (F : Frame) : BitVec 16 := memRead2 F 14 (by omega)

/-- A 16-byte sequence as a candidate frame; a sequence of any other length is none (41_crc_validator.md R84,
42_sample_decoder.md R95). -/
def frameOfBytes (bs : List Byte) : Option Frame :=
  if h : bs.length = 16 then some ⟨bs.toArray, by simp [h]⟩ else none

/-- The signed numbers a zero reference holds, in hundredths (10_state.md R15). -/
def refValues (z : ZeroRef) : Vector Int 6 := Vector.ofFn fun i => z[i].toInt

/-- Six numbers as ZREF elements of 16 bits (43_calibration.md R103). -/
def toZeroRef (v : Vector Int 6) : ZeroRef := Vector.ofFn fun i => BitVec.ofInt 16 v[i]

/-- Six numbers as response components of 18 bits (30_encoding.md R55). -/
def toSample (v : Vector Int 6) : Sample := Vector.ofFn fun i => BitVec.ofInt 18 v[i]

/-- Six zeros (the all-zero reference, 43_calibration.md R103). -/
def zeroValues : Vector Int 6 := Vector.replicate 6 0

/-- The all-zero zero reference (43_calibration.md R101). -/
def zeroRef : ZeroRef := Vector.replicate 6 0

/-- The all-zero sample of a response that carries none (45_session_commands.md R128). -/
def zeroSample : Sample := Vector.replicate 6 0

/-- The opcode of START (30_encoding.md R47). -/
def opStart : BitVec 3 := 1
/-- The opcode of READ (30_encoding.md R47). -/
def opRead : BitVec 3 := 2
/-- The opcode of STOP (30_encoding.md R47). -/
def opStop : BitVec 3 := 3
/-- The opcode of RATE_RESTART (30_encoding.md R47). -/
def opRateRestart : BitVec 3 := 4

/-- The port `rsp_sample`, 108 bits: `sample[i]` at bits `17 + 18i : 18i` (30_encoding.md R56, R60). -/
def packSample (v : Sample) : BitVec 108 := v[5] ++ (v[4] ++ (v[3] ++ (v[2] ++ (v[1] ++ v[0]))))

/-- The packed response, 179 bits, bit 0 the least significant bit of `op` (30_encoding.md R56). -/
def packResponse (r : Response) : BitVec 179 :=
  r.freq ++ (packSample r.sample ++ (statusCode r.status ++ r.op))

end Sys2Proof.Machine
end

