-- ==== Sys2Proof/Machine/Crc.lean ====
section
/-! DEFINITION. The CRC-16/Modbus validator (41_crc_validator.md). -/

namespace Sys2Proof.Machine

/-- One step of the inner loop of R80: shift right by one and, if the bit shifted out was 1, feed back. -/
def crcShift (c : BitVec 16) : BitVec 16 :=
  if c.getLsbD 0 then (c >>> 1) ^^^ Config.crcPolyReflected else c >>> 1

/-- `n` steps of the inner loop of R80. -/
def crcShifts : Nat → BitVec 16 → BitVec 16
  | 0, c => c
  | n + 1, c => crcShifts n (crcShift c)

/-- One byte of R80: it enters the low 8 bits, then 8 shift steps. -/
def crcByte (c : BitVec 16) (b : Byte) : BitVec 16 := crcShifts 8 (c ^^^ b.setWidth 16)

/-- `crc16(B)` (R80). -/
def crc16 (bs : List Byte) : BitVec 16 := bs.foldl crcByte Config.crcInit ^^^ Config.crcXorOut

/-- `T[v]`: the inner 8-step loop run on the 16-bit value `v` (R81). -/
def crcTable (v : Byte) : BitVec 16 := crcShifts 8 (v.setWidth 16)

/-- One byte in the table form of R81. -/
def crcTableByte (c : BitVec 16) (b : Byte) : BitVec 16 :=
  (c >>> 8) ^^^ crcTable ((c ^^^ b.setWidth 16).extractLsb' 0 8)

/-- The byte-at-a-time form of `crc16` (R81). -/
def crc16ByTable (bs : List Byte) : BitVec 16 := bs.foldl crcTableByte Config.crcInit ^^^ Config.crcXorOut

/-- `F[0..13]`, the CRC's input (R82). -/
def crcInput (F : Frame) : List Byte := F.toList.take Config.crcCover

/-- `validate(F)` (R83). -/
def validate (F : Frame) : Bool := crc16 (crcInput F) == crcField F

/-- The validator as a unit on byte sequences of any length: false, without computing a CRC, for every sequence that is
not a 16-byte frame (R84). A longer sequence cannot arise (R84); false for it too is a DESIGN CHOICE, safe: log entry 8. -/
def validateBytes (bs : List Byte) : Bool :=
  match frameOfBytes bs with
  | none => false
  | some F => validate F

/-- The two bytes a CRC is appended as, low byte first (R85, 30_encoding.md R53). -/
def crcBytes (c : BitVec 16) : List Byte := [c.extractLsb' 0 8, c.extractLsb' 8 8]

end Sys2Proof.Machine
end

