-- ==== Sys2Proof/Machine/SampleDecoder.lean ====
section
/-! DEFINITION. The sample decoder (42_sample_decoder.md): rounding division, scaling, zero-reference subtraction. -/

namespace Sys2Proof.Machine

/-- `rdiv(n, d)` under a tie rule (R90). For the positive `d` it is used with, `n / d` is the floor of R90. -/
def rdivBy (ties : RoundTies) (n d : Int) : Int :=
  let q := n / d
  let r := n - q * d
  if 2 * r < d then q
  else if d < 2 * r then q + 1
  else
    match ties with
    | .halfEven => if q % 2 = 0 then q else q + 1
    | .halfAway => if 0 ≤ n then q + 1 else q
    | .halfUp => q + 1

/-- `rdiv(n, d)` under the tie rule the block is built with (R90, 00_scope.md R6). -/
def rdiv (n d : Int) : Int := rdivBy Config.roundTies n d

/-- `K[i]`, thousandths per raw count: the divisors of 00_scope.md R5 turned into thousandths (R89). -/
def scaleK (i : Nat) : Int := if i < 3 then 1000 / Config.forceDiv else 1000 / Config.torqueDiv

/-- `m[i] = K[i] * raw[i] - 10 * Z[i]`, the exact difference in thousandths (R91). -/
def difference (F : Frame) (Z : Vector Int 6) (i : Fin 6) : Int :=
  scaleK i * rawField F i i.isLt - 10 * Z[i]

/-- `decode(F, Z)` under a tie rule: scale, subtract, then round once (R92, R94). -/
def decodeBy (ties : RoundTies) (F : Frame) (Z : Vector Int 6) : Vector Int 6 :=
  Vector.ofFn fun i => rdivBy ties (difference F Z i) 10

/-- `decode(F, Z)` (R92). -/
def decodeFrame (F : Frame) (Z : Vector Int 6) : Vector Int 6 := decodeBy Config.roundTies F Z

/-- What the decoder as a unit on byte sequences answers. -/
inductive DecodeResult where
  | values (v : Vector Int 6)
  | failure (st : Status)
  deriving DecidableEq

/-- The decoder as a unit on byte sequences of any length: the malformed-frame failure, and never a value, below 16
bytes (R95, 60_exceptions.md R142). A longer sequence cannot arise; failing on it too is a DESIGN CHOICE, safe: log
entry 8. -/
def decodeBytes (bs : List Byte) (Z : Vector Int 6) : DecodeResult :=
  match frameOfBytes bs with
  | none => .failure .fatalMalformed
  | some F => .values (decodeFrame F Z)

end Sys2Proof.Machine
end

