-- ==== Sys2Proof/Machine/Ops.lean ====
section
/-! DEFINITION. The shared operations: accepting an event, emitting a response, reporting an error, the byte window,
the marker comparator, the candidate frame and the estimator. -/

namespace Sys2Proof.Machine

/-! ### Accepting an event -/

/-- An event that changes nothing and gives no response: one offered while not enabled (30_encoding.md R52), or NOP. -/
def unchanged (b : Block) : Reaction := { block := b, rsp := none }

/-- A command is accepted only while not BUSY (45_session_commands.md R120, first test of 60_exceptions.md R148). -/
def acceptCommand (b : Block) (run : Reaction) : Reaction := if cmdReady b then run else unchanged b

/-- BYTE and TIMEOUT are accepted only while BUSY (40_frame_assembler.md R74). -/
def acceptReceive (b : Block) (run : Reaction) : Reaction := if rxReady b then run else unchanged b

/-! ### Responses and errors -/

/-- `respond(op, status, sample, freq)` with the state the step leaves (00_scope.md R9). -/
def respond (b : Block) (op : BitVec 3) (st : Status) (sample : Sample) (freq : BitVec 64) : Reaction :=
  { block := b, rsp := some { op := op, status := st, sample := sample, freq := freq } }

/-- `raise <Status>(op)`: the response `{op, status, sample = 0, freq = 0}` and no state change but what the rule lists
before it, which `b` already holds (00_scope.md R9). It is the block's whole "trap entry": nothing is saved, no mode
changes, control goes nowhere (60_exceptions.md R149); there is no return (R150). -/
def raise (b : Block) (st : Status) (op : BitVec 3) : Reaction := respond b op st zeroSample 0

/-! ### The assembler -/

/-- `SRPush(b)` (00_scope.md R9, 40_frame_assembler.md R66). -/
def srPush (sr : Window) (b : Byte) : Window :=
  Vector.ofFn fun i => if h : i.val < 15 then sr[i.val + 1] else b

/-- `CNT' = min(CNT + 1, 16)` (10_state.md R14). -/
def cntNext (cnt : BitVec 5) : BitVec 5 := BitVec.ofNat 5 (min (cnt.toNat + 1) 16)

/-- `match(SR', CNT')` (40_frame_assembler.md R67). -/
def markerMatch (sr : Window) (cnt : BitVec 5) : Bool :=
  decide (2 ≤ cnt.toNat) && sr[14] == Config.marker0 && sr[15] == Config.marker1

/-- The candidate frame: the constant marker, then the 14 bytes that preceded the matched marker
(40_frame_assembler.md R68). -/
def candidateFrame (sr : Window) : Frame :=
  Vector.ofFn fun k =>
    if k.val = 0 then Config.marker0 else if k.val = 1 then Config.marker1 else sr[k.val - 2]

/-- The outcome of a read that ends at a match (40_frame_assembler.md R66, R69). -/
def matchOutcome (sr : Window) (cnt : BitVec 5) : ReadOutcome :=
  if cnt = 16#5 then .frame (candidateFrame sr) else .short

/-! ### The estimator -/

/-- `elapsed() = (TIME - START_T) mod 2^TW` (44_rate_estimator.md R111). -/
def elapsed (b : Block) : BitVec 64 := b.time - b.startT

/-- `est_start()` (44_rate_estimator.md R112). -/
def estStart (b : Block) : Block := { b with startT := b.time, count := 0, freq := 0 }

/-- `FREQ'` of `est_record()`: hold at zero elapsed time, else `rdiv(COUNT' * TICK_HZ, e)` (44_rate_estimator.md R113). -/
def freqNext (freq : BitVec 64) (count : BitVec 32) (e : BitVec 64) : BitVec 64 :=
  if e = 0 then freq
  else BitVec.ofInt 64 (rdiv ((count.toNat : Int) * (Config.tickHz : Int)) (e.toNat : Int))

/-- `est_record()` (44_rate_estimator.md R113); the value it returns is the new FREQ. -/
def estRecord (b : Block) : Block :=
  { b with count := b.count + 1, freq := freqNext b.freq (b.count + 1) (elapsed b) }

/-- No input event is offered: an idle core does nothing (60_exceptions.md R155), and a BUSY one stays BUSY
(70_reset_and_hazards.md R166). -/
def idleStep (s : State) : Host.Outcome State Fault Refusal := .next (s.react (unchanged s.block))

end Sys2Proof.Machine
end

