-- ==== Sys2Proof/Machine/Calibration.lean ====
section
/-! DEFINITION. The two calibration reads (43_calibration.md): what the completion of each does. -/

namespace Sys2Proof.Machine

/-- Completion in CAL_DISCARD, whatever the outcome: the second read begins at once (R102). -/
def completeDiscard (b : Block) : Reaction :=
  { block := { b with cnt := 0, sess := .calCapture }, rsp := none }

/-- Successful completion in CAL_CAPTURE: the frame, decoded with an all-zero reference, becomes ZREF, and the
estimator starts (R103). -/
def captureReference (b : Block) (F : Frame) : Reaction :=
  let zn := decodeFrame F zeroValues
  respond { estStart { b with zref := toZeroRef zn } with cnt := 0, sess := .ready } opStart .ok (toSample zn) 0

/-- Failed completion in CAL_CAPTURE: the Idle to Started transition is aborted (R104). -/
def abortCalibration (b : Block) (st : Status) : Reaction :=
  raise { b with cnt := 0, sess := .idle } st opStart

/-- Completion in CAL_CAPTURE (R103, R104; 40_frame_assembler.md R72). -/
def completeCapture (b : Block) : ReadOutcome → Reaction
  | .frame F => if validate F then captureReference b F else abortCalibration b .recCrc
  | .short => abortCalibration b .recShort
  | .timeout => abortCalibration b .recTimeout

end Sys2Proof.Machine
end

