-- ==== Sys2Proof/Machine/Assembler.lean ====
section
/-! DEFINITION. The frame assembler's events BYTE and TIMEOUT (40_frame_assembler.md) and the completion of a read. -/

namespace Sys2Proof.Machine

/-- Successful completion in READING: decode against ZREF, then record (45_session_commands.md R125). -/
def deliverSample (b : Block) (F : Frame) : Reaction :=
  let b' := { estRecord b with cnt := 0, sess := .ready }
  respond b' opRead .ok (toSample (decodeFrame F (refValues b.zref))) b'.freq

/-- Failed completion in READING: only CNT and SESS are written (45_session_commands.md R125). -/
def failRead (b : Block) (st : Status) : Reaction := raise { b with cnt := 0, sess := .ready } st opRead

/-- Completion in READING (45_session_commands.md R125): the CRC is checked before anything is decoded. -/
def completeReading (b : Block) : ReadOutcome → Reaction
  | .frame F => if validate F then deliverSample b F else failRead b .recCrc
  | .short => failRead b .recShort
  | .timeout => failRead b .recTimeout

/-- `Complete(outcome)` (R72). SESS is always one of the three BUSY values when it runs (R72); what it answers in the
other three is never reached. DESIGN CHOICE, safe: log entry 7. -/
def complete (b : Block) (o : ReadOutcome) : Reaction :=
  match b.sess with
  | .calDiscard => completeDiscard b
  | .calCapture => completeCapture b o
  | .reading => completeReading b o
  | .idle => unchanged b
  | .ready => unchanged b
  | .stopped => unchanged b

/-- An accepted byte (R66): push, count, compare, and complete the read at a match. -/
def takeByte (b : Block) (d : Byte) : Reaction :=
  let sr' := srPush b.sr d
  let cnt' := cntNext b.cnt
  if markerMatch sr' cnt' then complete { b with sr := sr' } (matchOutcome sr' cnt')
  else { block := { b with sr := sr', cnt := cnt' }, rsp := none }

/-- BYTE(b) (R66, R74). -/
def execByte (d : Byte) (s : State) : Host.Outcome State Fault Refusal :=
  .next (s.react (acceptReceive s.block (takeByte s.block d)))

/-- TIMEOUT (R70, R74): the read ends; SR is unchanged. -/
def execTimeout (s : State) : Host.Outcome State Fault Refusal :=
  .next (s.react (acceptReceive s.block (complete s.block .timeout)))

end Sys2Proof.Machine
end

