-- ==== Sys2Proof/Machine/ResetLine.lean ====
section
/-! DEFINITION. The reset event (70_reset_and_hazards.md). -/

namespace Sys2Proof.Machine

/-- RESET (R156): always enabled; every item of state takes its reset value; no response, so a read in flight is
abandoned unanswered. -/
def execReset (s : State) : Host.Outcome State Fault Refusal :=
  .next (s.react { block := Block.reset, rsp := none })

end Sys2Proof.Machine
end

