-- ==== Sys2Proof/Machine/Session.lean ====
section
/-! DEFINITION. The host commands (45_session_commands.md). -/

namespace Sys2Proof.Machine

/-- NOP (R122): nothing. -/
def execNop (s : State) : Host.Outcome State Fault Refusal :=
  .next (s.react (acceptCommand s.block (unchanged s.block)))

/-- An accepted START (R123): refused unless IDLE; with calibration the first read begins and the response comes later;
without it ZREF is cleared, the estimator starts and the session is READY. -/
def startSession (b : Block) (cal : Bool) : Reaction :=
  match b.sess with
  | .idle =>
    if cal then { block := { b with cnt := 0, sess := .calDiscard }, rsp := none }
    else respond { estStart { b with zref := zeroRef } with cnt := 0, sess := .ready } opStart .ok zeroSample 0
  | .calDiscard => raise b .fatalBadState opStart
  | .calCapture => raise b .fatalBadState opStart
  | .ready => raise b .fatalBadState opStart
  | .reading => raise b .fatalBadState opStart
  | .stopped => raise b .fatalBadState opStart

/-- START(cal) (R120, R123). -/
def execStart (cal : Bool) (s : State) : Host.Outcome State Fault Refusal :=
  .next (s.react (acceptCommand s.block (startSession s.block cal)))

/-- An accepted READ (R124): a read begins in READY; elsewhere the session is not active. -/
def beginRead (b : Block) : Reaction :=
  if b.sess = .ready then { block := { b with cnt := 0, sess := .reading }, rsp := none }
  else raise b .fatalNotActive opRead

/-- READ (R120, R124). -/
def execRead (s : State) : Host.Outcome State Fault Refusal :=
  .next (s.react (acceptCommand s.block (beginRead s.block)))

/-- An accepted STOP (R126): always OK; only READY moves. -/
def stopSession (b : Block) : Reaction :=
  respond (if b.sess = .ready then { b with sess := .stopped } else b) opStop .ok zeroSample 0

/-- STOP (R120, R126). -/
def execStop (s : State) : Host.Outcome State Fault Refusal :=
  .next (s.react (acceptCommand s.block (stopSession s.block)))

/-- An accepted RATE_RESTART (R127). -/
def restartRate (b : Block) : Reaction :=
  if b.sess = .ready then respond (estStart b) opRateRestart .ok zeroSample 0
  else raise b .fatalNotActive opRateRestart

/-- RATE_RESTART (R120, R127). -/
def execRateRestart (s : State) : Host.Outcome State Fault Refusal :=
  .next (s.react (acceptCommand s.block (restartRate s.block)))

/-- A reserved command word (30_encoding.md R48, R121): not accepted while BUSY; accepted, it is refused with
FATAL_BAD_CMD, `op = w[2:0]`, and changes no state. -/
def execReserved (op : BitVec 3) (s : State) : Host.Outcome State Fault Refusal :=
  .next (s.react (acceptCommand s.block (raise s.block .fatalBadCmd op)))

end Sys2Proof.Machine
end

