-- ==== Sys2Proof/Machine/TimeBase.lean ====
section
/-! DEFINITION. The time base's event (44_rate_estimator.md). -/

namespace Sys2Proof.Machine

/-- TICK (R110): always enabled; writes TIME only, modulo 2^64; no response. -/
def execTick (s : State) : Host.Outcome State Fault Refusal :=
  .next (s.react { block := { s.block with time := s.block.time + 1 }, rsp := none })

end Sys2Proof.Machine
end

