-- ==== Sys2Proof/Machine/Dispatch.lean ====
section
/-! DEFINITION. One arm per input event of spec/opcode_table.json, in the table's order. -/

namespace Sys2Proof.Machine

def exec (i : Instr) (s : State) : Host.Outcome State Fault Refusal :=
  match i with
  | .nop => Sys2Proof.Machine.execNop s
  | .start cal => Sys2Proof.Machine.execStart cal s
  | .read => Sys2Proof.Machine.execRead s
  | .stop => Sys2Proof.Machine.execStop s
  | .rateRestart => Sys2Proof.Machine.execRateRestart s
  | .byte b => Sys2Proof.Machine.execByte b s
  | .timeout => Sys2Proof.Machine.execTimeout s
  | .tick => Sys2Proof.Machine.execTick s
  | .reset => Sys2Proof.Machine.execReset s

end Sys2Proof.Machine
end

