-- ==== Sys2Proof/Machine/Step.lean ====
section
/-! DEFINITION. One step: take the next input event of the sequence, decode it, perform it (20_memory.md R41). -/

namespace Sys2Proof.Machine

/-- Perform one input word: the instruction it decodes to, or, for a reserved command word, the refusal the spec gives
it (45_session_commands.md R121). -/
def perform (x : InputWord) (s : State) : Host.Outcome State Fault Refusal :=
  match Sys2Proof.decode x with
  | .instr i => exec i s
  | .rejected (.reservedCommand w) => execReserved (commandOp w) s

/-- One step of the machine. An event that the block does not accept has been offered and taken off the sequence; the
environment offers it again by putting it into the sequence again (20_memory.md R41, 40_frame_assembler.md R74: log
entry 4). With no event offered the block stays as it is. -/
def step (s : State) : Host.Outcome State Fault Refusal :=
  match s.input with
  | [] => idleStep s
  | x :: rest => perform x { s with input := rest }

/-- The state in which the next event offered is the one the opcode-table number `w` stands for (log entry 3). -/
def State.withFetchWord (s : State) (nbits w : Nat) : State :=
  match Sys2Proof.tableInput nbits w with
  | some x => { s with input := x :: s.input }
  | none => s

end Sys2Proof.Machine
end

