-- ==== Sys2Proof/Machine/Wire.lean ====
section
/-! DEFINITION. The frame on the wire as the sensor sends it (30_encoding.md R53), for the event traces of R59. -/

namespace Sys2Proof.Machine

/-- The two bytes of a 16-bit field, low byte first (20_memory.md R32). -/
def fieldBytes (raw : BitVec 16) : List Byte := [raw.extractLsb' 0 8, raw.extractLsb' 8 8]

/-- `MARKER`: W[0], W[1] (R53, R59). -/
def markerBytes : List Byte := [Config.marker0, Config.marker1]

/-- W[2..13]: the six fields in the order Fx, Fy, Fz, Tx, Ty, Tz (R53). -/
def dataBytes (raw : Vector (BitVec 16) 6) : List Byte := raw.toList.flatMap fieldBytes

/-- `BODY(r0, .., r5)`: W[2..15], the data bytes and the CRC of W[0..13], low byte first (R53, R59). -/
def bodyBytes (raw : Vector (BitVec 16) 6) : List Byte :=
  dataBytes raw ++ crcBytes (crc16 (markerBytes ++ dataBytes raw))

/-- One whole frame W[0..15] (R53). -/
def wireFrame (raw : Vector (BitVec 16) 6) : List Byte := markerBytes ++ bodyBytes raw

/-- The bytes hold the marker pair 0x20, 0x4E somewhere (40_frame_assembler.md R75). -/
def hasMarker : List Byte → Bool
  | [] => false
  | [_] => false
  | a :: b :: rest => (a == Config.marker0 && b == Config.marker1) || hasMarker (b :: rest)

end Sys2Proof.Machine
end

