-- ==== Sys2Proof/Machine/Trace.lean ====
section
/-! DEFINITION. The behaviour on a sequence of events: the left fold of the step with the responses collected in order
(20_memory.md R41, R42), and the pseudo-operations of event traces (30_encoding.md R59). -/

namespace Sys2Proof.Machine

/-- The end of a trace: the last state, and the responses emitted on the way, the first one first. -/
structure TraceEnd where
  state : State
  responses : List Response
  deriving DecidableEq, Repr

/-- Perform a sequence of input words one after the other (20_memory.md R41, R42). -/
def runWords : List InputWord → State → Host.Outcome TraceEnd Fault Refusal
  | [], s => .next { state := s, responses := [] }
  | x :: rest, s =>
    match perform x s with
    | .next s' =>
      match runWords rest s' with
      | .next t => .next { t with responses := s'.rsp.toList ++ t.responses }
      | .fault r => .fault r
      | .refused r => .refused r
    | .fault r => .fault r
    | .refused r => .refused r

/-- `BYTES b0 b1 ... bk` (R59). -/
def byteWords (bs : List Byte) : List InputWord := bs.map fun b => .rx (receiveWord false b)

/-- `TICK n` (R59). -/
def tickWords (n : Nat) : List InputWord := List.replicate n .tick

/-- `MARKER` (R59). -/
def markerWords : List InputWord := byteWords markerBytes

/-- `BODY(r0, .., r5)` (R59). -/
def bodyWords (raw : Vector (BitVec 16) 6) : List InputWord := byteWords (bodyBytes raw)

end Sys2Proof.Machine
end

