-- ==== Sys2Proof/Machine/Ports.lean ====
section
/-! DEFINITION. The signal-level binding (30_encoding.md R60, R61) and the byte source beside the block (20_memory.md R35
to R37). A port with a valid wire is an Option: `some` is valid = 1, and no value is given to its data while valid = 0.
The event-level interface is the normative one (R60): `cycle` only turns the wires of one cycle into events. -/

namespace Sys2Proof.Machine

/-- The input wires sampled in one clock cycle (R60). -/
structure PinsIn where
  /-- `rst` -/
  rst : Bool
  /-- `tick` -/
  tick : Bool
  /-- `cmd_valid` with `cmd_word` -/
  cmd : Option CommandWord
  /-- `rx_valid` with `rx_data` -/
  rx : Option Byte
  /-- `rx_timeout` -/
  rxTimeout : Bool
  deriving DecidableEq, Repr

/-- What happens on the receive port in a cycle without reset: TIMEOUT over BYTE, and nothing unless BUSY (R60, R61). -/
def receiveEvents (p : PinsIn) (b : Block) : List InputWord :=
  if rxReady b then
    if p.rxTimeout then [.rx (receiveWord true 0)]
    else match p.rx with
      | some d => [.rx (receiveWord false d)]
      | none => []
  else []

/-- What happens on the command port in a cycle without reset: nothing while BUSY (R60, R61). -/
def commandEvents (p : PinsIn) (b : Block) : List InputWord :=
  if cmdReady b then
    match p.cmd with
    | some w => [.cmd w]
    | none => []
  else []

/-- The ordered list of events one cycle yields (R61): RESET over everything, then the command or the receive event,
TICK last. -/
def cycleEvents (p : PinsIn) (b : Block) : List InputWord :=
  if p.rst then [.rst]
  else commandEvents p b ++ receiveEvents p b ++ (if p.tick then [.tick] else [])

/-- One clock cycle: its events performed in order as separate steps; `responses` is what the response port carries, at
most one (R60, R61). -/
def cycle (p : PinsIn) (s : State) : Host.Outcome TraceEnd Fault Refusal := runWords (cycleEvents p s.block) s

/-- The cycle accepts the offered byte: `rx_valid = rx_ready = 1` and `rx_timeout = 0`, and no reset (R60, R61). -/
def byteTaken (p : PinsIn) (b : Block) : Bool := !p.rst && rxReady b && !p.rxTimeout && p.rx.isSome

/-- The cycle accepts the offered command word (R60). -/
def commandTaken (p : PinsIn) (b : Block) : Bool := !p.rst && cmdReady b && p.cmd.isSome

/-- What the environment does in one cycle: the reset line, the time base, the host's offer, the byte source's timeout,
and the bytes that reach the byte source from the wire. -/
structure Drive where
  rst : Bool
  tick : Bool
  cmd : Option CommandWord
  timeout : Bool
  arrivals : List Byte
  deriving DecidableEq, Repr

/-- The block with the byte source beside it. -/
structure Bench where
  state : State
  /-- the bytes received from the wire and not yet accepted, the oldest first, without a bound (20_memory.md R36, R37,
  10_state.md R23) -/
  held : List Byte
  deriving DecidableEq, Repr

/-- The end of a bench cycle. -/
structure BenchEnd where
  bench : Bench
  responses : List Response
  deriving DecidableEq, Repr

/-- The wires the environment drives: the byte source offers its oldest byte (20_memory.md R36). -/
def benchPins (d : Drive) (n : Bench) : PinsIn where
  rst := d.rst
  tick := d.tick
  cmd := d.cmd
  rx := n.held.head?
  rxTimeout := d.timeout

/-- One cycle of the block and its byte source: an accepted byte leaves the byte source, any other stays offered
(20_memory.md R35, R36). Bytes that arrive in a cycle are offered from the next cycle on: DESIGN CHOICE, safe: log
entry 9. -/
def benchCycle (d : Drive) (n : Bench) : Host.Outcome BenchEnd Fault Refusal :=
  match cycle (benchPins d n) n.state with
  | .next t =>
    .next {
      bench := {
        state := t.state
        held := (if byteTaken (benchPins d n) n.state.block then n.held.tail else n.held) ++ d.arrivals }
      responses := t.responses }
  | .fault r => .fault r
  | .refused r => .refused r

end Sys2Proof.Machine
end

