-- ==== Sys2Proof/Safety.lean ====
section
/-! DEFINITION. What a well-behaved state of the block is (10_state.md R24) and what "nothing older than the read in
flight is looked at" means (40_frame_assembler.md R71, 93_implementation_defined.md U8). -/

namespace Sys2Proof.Safety

open Sys2Proof.Machine

/-- R24 (a): CNT is at most 16. -/
abbrev CntAtMost16 (b : Block) : Prop := b.cnt.toNat ≤ 16

/-- R24 (c): CNT is 0 whenever the core is not BUSY. -/
abbrev CntZeroWhenNotBusy (b : Block) : Prop := busy b = false → b.cnt = 0

/-- R24 (a) and (c); (b) holds by the type of SESS. -/
abbrev ReadCountSound (b : Block) : Prop := CntAtMost16 b ∧ CntZeroWhenNotBusy b

/-- R24 (e): ZREF is all zero or was decoded from one frame with the all-zero reference. -/
def ReferenceFromFrame (b : Block) : Prop :=
  b.zref = zeroRef ∨ ∃ F : Frame, b.zref = toZeroRef (decodeFrame F zeroValues)

/-- R24 (e), its consequence: the torque elements of ZREF lie in -3277..3277. -/
abbrev TorqueReferenceInRange (b : Block) : Prop :=
  ∀ i : Fin 6, 3 ≤ i.val → -3277 ≤ b.zref[i].toInt ∧ b.zref[i].toInt ≤ 3277

/-- R24 (d), as the state shows it: while no START has succeeded (SESS is IDLE, CAL_DISCARD or CAL_CAPTURE), ZREF, START_T,
COUNT and FREQ are still at their reset values. -/
abbrev UntouchedBeforeStarted (b : Block) : Prop :=
  sourceState b.sess = .idle → b.zref = zeroRef ∧ b.startT = 0 ∧ b.count = 0 ∧ b.freq = 0

/-- R24 (f): no frequency without a sample. -/
abbrev FreqZeroWithoutSamples (b : Block) : Prop := b.count = 0 → b.freq = 0

/-- The bytes of SR that belong to the read in flight are the newest CNT ones (U8): two windows agree on them. -/
def SameReadBytes (cnt : BitVec 5) (x y : Window) : Prop :=
  ∀ i : Fin 16, 16 - cnt.toNat ≤ i.val → x[i] = y[i]

/-- Two blocks that differ at most in bytes of SR left over from earlier reads (40_frame_assembler.md R71). -/
def SameButStaleBytes (b c : Block) : Prop :=
  c = { b with sr := c.sr } ∧ SameReadBytes b.cnt b.sr c.sr

/-- Two blocks a host cannot tell apart while no session is started: in IDLE, CAL_DISCARD, CAL_CAPTURE and STOPPED the
registers ZREF, START_T, COUNT and FREQ are observed by no command (93_implementation_defined.md U9). -/
def SameButUnobserved (b c : Block) : Prop :=
  b.sess = c.sess ∧ b.cnt = c.cnt ∧ b.sr = c.sr ∧ b.time = c.time ∧
    (sourceState b.sess = .started → b.zref = c.zref ∧ b.startT = c.startT ∧ b.count = c.count ∧ b.freq = c.freq)

/-- The step that led to `t` answered the command `op` with the status `st` (30_encoding.md R55). -/
def Answers (t : State) (op : BitVec 3) (st : Status) : Prop :=
  ∃ r, t.rsp = some r ∧ r.op = op ∧ r.status = st

/-- The step that led to `t` answered the command `op` with a recoverable status (60_exceptions.md R137). -/
def AnswersRecoverable (t : State) (op : BitVec 3) : Prop :=
  ∃ st, statusClass st = .recoverable ∧ Answers t op st

/-- The event is one that can end a read (40_frame_assembler.md R65). -/
def MayEndRead (i : Instr) : Prop := i = .timeout ∨ ∃ d, i = .byte d

end Sys2Proof.Safety
end

