-- ==== Sys2Proof/Certificates/Slice0/Obligations.lean ====
section
/-! DEFINITION. The statements for the provers. Each formalises the rules its docstring names; OBLIGATIONS.json lists
them. -/

open Sys2Proof Sys2Proof.Machine Sys2Proof.Safety

/-! ### Encoding and the step -/

/-- R47, R49, R50, R51: decoding gives `i` exactly on `i`'s own input word, and, for TIMEOUT, on every receive word with
bit 8 set. So decode and encode agree on all nine events and no operand bit is dropped. -/
def Obligations.DecodeAgreesWithEncode : Prop :=
  ∀ (x : InputWord) (i : Instr),
    Sys2Proof.decode x = .instr i ↔
      x = encode i ∨ (i = .timeout ∧ ∃ d : Byte, x = .rx (receiveWord true d))

/-- R48, R121: which command words are well formed, what the six of them are, how they are dispatched, and that every
other word, accepted, is refused with FATAL_BAD_CMD and changes no state. -/
def Obligations.ReservedCommandWordRefused : Prop :=
  ∀ w : CommandWord,
    (commandWellFormed w = true ↔
      w.extractLsb' 4 4 = 0#4 ∧ (w.extractLsb' 0 3).toNat ≤ 4 ∧
        (w.getLsbD 3 = false ∨ w.extractLsb' 0 3 = 1#3)) ∧
    (commandWellFormed w = true ↔ w ∈ [0x00#8, 0x01#8, 0x09#8, 0x02#8, 0x03#8, 0x04#8]) ∧
    (commandWellFormed w = true →
      Sys2Proof.decode (.cmd w) = .instr (match (w.extractLsb' 0 3).toNat with
        | 0 => .nop
        | 1 => .start (w.getLsbD 3)
        | 2 => .read
        | 3 => .stop
        | _ => .rateRestart)) ∧
    (commandWellFormed w = false → ∀ s : State, busy s.block = false →
      perform (.cmd w) s = .next { s with
        rsp := some { op := w.extractLsb' 0 3, status := .fatalBadCmd, sample := zeroSample, freq := 0 } })

/-- R47, R50, R51: words written out bit by bit from the patterns decode to the event they stand for. -/
def Obligations.PatternWordsDecode : Prop :=
  Sys2Proof.decode (.cmd 0b00000000#8) = .instr .nop ∧
  Sys2Proof.decode (.cmd 0b00000001#8) = .instr (.start false) ∧
  Sys2Proof.decode (.cmd 0b00001001#8) = .instr (.start true) ∧
  Sys2Proof.decode (.cmd 0b00000010#8) = .instr .read ∧
  Sys2Proof.decode (.cmd 0b00000011#8) = .instr .stop ∧
  Sys2Proof.decode (.cmd 0b00000100#8) = .instr .rateRestart ∧
  Sys2Proof.decode (.rx 0b001001110#9) = .instr (.byte 0x4E#8) ∧
  Sys2Proof.decode (.rx 0b110100101#9) = .instr .timeout ∧
  Sys2Proof.decode .tick = .instr .tick ∧
  Sys2Proof.decode .rst = .instr .reset

/-- R41: a step takes the next input event and runs exactly the instruction it decodes to, on the state without that
event; a reserved command word is refused (not accepted while BUSY); with no event offered nothing happens (the model's
choice of how a closed step meets an empty input, log entry 2). -/
def Obligations.StepRunsTheDecodedEvent : Prop :=
  ∀ s : State,
    (∀ x rest i, s.input = x :: rest → Sys2Proof.decode x = .instr i →
      step s = exec i { s with input := rest }) ∧
    (∀ x rest w, s.input = x :: rest → Sys2Proof.decode x = .rejected (.reservedCommand w) →
      step s = .next { s with
        input := rest
        rsp := if busy s.block then none
          else some { op := w.extractLsb' 0 3, status := .fatalBadCmd, sample := zeroSample, freq := 0 } }) ∧
    (s.input = [] → step s = .next { s with rsp := none })

/-- The model's choice (log entry 3): the opcode-table number placed as the next event is run by the very next step. -/
def Obligations.TableWordRunsNext : Prop :=
  ∀ (s : State) (nbits w : Nat) (i : Instr),
    decodeTableWord nbits w = some i → step (s.withFetchWord nbits w) = exec i s

/-- R41, R52: where an event is offered, the step answers a next state and takes exactly that event off the input. Where
none is, it answers a next state and takes none: no rule speaks of a step without an event, so that case is the model's
choice, log entry 2. -/
def Obligations.StepAlwaysAnswersNext : Prop :=
  ∀ s : State, ∃ t, step s = .next t ∧ t.input = s.input.tail

/-- R23, R41: the effect of an event is a function of the event and the eight items of state alone: neither the last
response nor the events still to come have any influence. -/
def Obligations.EffectReadsOnlyTheBlock : Prop :=
  ∀ (i : Instr) (s t : State), s.block = t.block →
    ∃ r : Reaction, exec i s = .next (s.react r) ∧ exec i t = .next (t.react r)

/-- R41: `k` steps over a sequence of events are the left fold of the step over it, and the fold always ends. -/
def Obligations.TraceIsTheRunOfTheMachine : Prop :=
  ∀ (ws rest : List InputWord) (s : State), ∃ e, runWords ws s = .next e ∧
    Host.Core.run Sys2Proof.core ws.length { s with input := ws ++ rest } = .next { e.state with input := rest }

/-! ### The nine events -/

/-- R122. -/
def Obligations.NopChangesNothing : Prop :=
  Sys2Proof.decode (.cmd 0b00000000#8) = .instr .nop ∧
  ∀ s : State, exec .nop s = .next { s with rsp := none }

/-- R110. -/
def Obligations.TickIncrementsTime : Prop :=
  Sys2Proof.decode .tick = .instr .tick ∧
  ∀ s : State, ∃ t, exec .tick s = .next t ∧
    t.block.time.toNat = (s.block.time.toNat + 1) % 2 ^ 64 ∧
    t = { s with block := { s.block with time := t.block.time }, rsp := none }

/-- R25, R156: RESET gives every piece of state its reset value, from every state, without a response, and overrides
every other event of its cycle; the machine starts in that state. -/
def Obligations.ResetClearsEverything : Prop :=
  Sys2Proof.decode .rst = .instr .reset ∧
  (∀ s : State, ∃ t, exec .reset s = .next t ∧ t.rsp = none ∧ t.input = s.input ∧ t.block = State.reset.block) ∧
  State.reset.block.sess = .idle ∧ State.reset.block.cnt = 0 ∧
  (∀ i : Fin 16, State.reset.block.sr[i] = 0x00#8) ∧ (∀ i : Fin 6, State.reset.block.zref[i] = 0) ∧
  State.reset.block.time = 0 ∧ State.reset.block.startT = 0 ∧ State.reset.block.count = 0 ∧
  State.reset.block.freq = 0 ∧ State.reset.rsp = none ∧
  (∀ (p : PinsIn) (s : State), p.rst = true → ∃ e, cycle p s = .next e ∧
    e.state = { s with block := State.reset.block, rsp := none } ∧ e.responses = [])

/-- R123. -/
def Obligations.StartEffect : Prop :=
  (∀ cal, Sys2Proof.decode (.cmd (0b0000#4 ++ (BitVec.ofBool cal ++ 0b001#3))) = .instr (.start cal)) ∧
  ∀ s : State,
    (s.block.sess = .idle → exec (.start false) s = .next { s with
      block := { s.block with
        sess := .ready, cnt := 0, zref := Vector.replicate 6 0,
        startT := s.block.time, count := 0, freq := 0 }
      rsp := some { op := 1, status := .ok, sample := Vector.replicate 6 0, freq := 0 } }) ∧
    (s.block.sess = .idle → exec (.start true) s = .next { s with
      block := { s.block with sess := .calDiscard, cnt := 0 }
      rsp := none }) ∧
    (s.block.sess = .ready ∨ s.block.sess = .stopped → ∀ cal, exec (.start cal) s = .next { s with
      rsp := some { op := 1, status := .fatalBadState, sample := Vector.replicate 6 0, freq := 0 } })

/-- R124. -/
def Obligations.ReadEffect : Prop :=
  Sys2Proof.decode (.cmd 0b00000010#8) = .instr .read ∧
  ∀ s : State,
    (s.block.sess = .ready → exec .read s = .next { s with
      block := { s.block with sess := .reading, cnt := 0 }
      rsp := none }) ∧
    (s.block.sess = .idle ∨ s.block.sess = .stopped → exec .read s = .next { s with
      rsp := some { op := 2, status := .fatalNotActive, sample := Vector.replicate 6 0, freq := 0 } })

/-- R126. -/
def Obligations.StopEffect : Prop :=
  Sys2Proof.decode (.cmd 0b00000011#8) = .instr .stop ∧
  ∀ s : State, busy s.block = false → exec .stop s = .next { s with
    block := { s.block with sess := if s.block.sess = .ready then .stopped else s.block.sess }
    rsp := some { op := 3, status := .ok, sample := Vector.replicate 6 0, freq := 0 } }

/-- R127. -/
def Obligations.RateRestartEffect : Prop :=
  Sys2Proof.decode (.cmd 0b00000100#8) = .instr .rateRestart ∧
  ∀ s : State,
    (s.block.sess = .ready → exec .rateRestart s = .next { s with
      block := { s.block with startT := s.block.time, count := 0, freq := 0 }
      rsp := some { op := 4, status := .ok, sample := Vector.replicate 6 0, freq := 0 } }) ∧
    (s.block.sess = .idle ∨ s.block.sess = .stopped → exec .rateRestart s = .next { s with
      rsp := some { op := 4, status := .fatalNotActive, sample := Vector.replicate 6 0, freq := 0 } })

/-- R66, R67, R68: an accepted byte is pushed and counted; the read ends at a match, with the candidate frame when 16 or
more bytes were accepted and SHORT when fewer were. `F` is the frame R68 builds. -/
def Obligations.ByteShiftsCountsAndCompares : Prop :=
  (∀ d : Byte, Sys2Proof.decode (.rx (0#1 ++ d)) = .instr (.byte d)) ∧
  ∀ (s : State) (d : Byte) (sr' : Window) (cnt' : BitVec 5) (F : Frame),
    busy s.block = true →
    (∀ i : Fin 15, sr'[i.val] = s.block.sr[i.val + 1]) → sr'[15] = d →
    cnt'.toNat = min (s.block.cnt.toNat + 1) 16 →
    F[0] = 0x20#8 → F[1] = 0x4E#8 → (∀ i : Fin 14, F[2 + i.val] = sr'[i.val]) →
    (¬(2 ≤ cnt'.toNat ∧ sr'[14] = 0x20#8 ∧ sr'[15] = 0x4E#8) →
      exec (.byte d) s = .next { s with block := { s.block with sr := sr', cnt := cnt' }, rsp := none }) ∧
    (2 ≤ cnt'.toNat ∧ sr'[14] = 0x20#8 ∧ sr'[15] = 0x4E#8 →
      exec (.byte d) s = .next (s.react
        (complete { s.block with sr := sr' } (if cnt'.toNat = 16 then .frame F else .short))))

/-- R70: a TIMEOUT ends the read whatever CNT is; SR, ZREF and the estimator are unchanged, and it is answered only in
CAL_CAPTURE and READING. -/
def Obligations.TimeoutEffect : Prop :=
  (∀ d : Byte, Sys2Proof.decode (.rx (1#1 ++ d)) = .instr .timeout) ∧
  ∀ s : State,
    (busy s.block = true → exec .timeout s = .next (s.react (complete s.block .timeout))) ∧
    (s.block.sess = .calDiscard → exec .timeout s = .next { s with
      block := { s.block with sess := .calCapture, cnt := 0 }
      rsp := none }) ∧
    (s.block.sess = .calCapture → exec .timeout s = .next { s with
      block := { s.block with sess := .idle, cnt := 0 }
      rsp := some { op := 1, status := .recTimeout, sample := Vector.replicate 6 0, freq := 0 } }) ∧
    (s.block.sess = .reading → exec .timeout s = .next { s with
      block := { s.block with sess := .ready, cnt := 0 }
      rsp := some { op := 2, status := .recTimeout, sample := Vector.replicate 6 0, freq := 0 } })

/-! ### Events that are not accepted -/

/-- R120, R148: while BUSY no command word is accepted, reserved or not: no state change and no response. -/
def Obligations.CommandNotAcceptedWhileBusy : Prop :=
  ∀ (s : State) (w : CommandWord), busy s.block = true → perform (.cmd w) s = .next { s with rsp := none }

/-- R74: a receive word offered while not BUSY changes nothing, the bytes stay with the byte source, in order, and a
TIMEOUT is dropped. -/
def Obligations.ReceiveNotAcceptedWhileNotBusy : Prop :=
  (∀ (s : State) (v : ReceiveWord), busy s.block = false → perform (.rx v) s = .next { s with rsp := none }) ∧
  (∀ (d : Drive) (n : Bench), busy n.state.block = false → ∃ e, benchCycle d n = .next e ∧
    ∃ later, e.bench.held = n.held ++ later)

/-! ### Completion of a read -/

/-- R102: in CAL_DISCARD any outcome is discarded and the second read begins. -/
def Obligations.CompletionInCalDiscard : Prop :=
  ∀ (b : Block) (o : ReadOutcome), b.sess = .calDiscard →
    complete b o = { block := { b with cnt := 0, sess := .calCapture }, rsp := none }

/-- R103, R104: a valid frame becomes the zero reference, exactly, and starts the estimator; every other outcome aborts
the start with its own status and leaves all but CNT and SESS. -/
def Obligations.CompletionInCalCapture : Prop :=
  ∀ b : Block, b.sess = .calCapture →
    (∀ F : Frame, validate F = true → ∃ (z : ZeroRef) (r : Response),
      complete b (.frame F) = {
        block := { b with zref := z, startT := b.time, count := 0, freq := 0, cnt := 0, sess := .ready }
        rsp := some r } ∧
      r.op = 1 ∧ r.status = .ok ∧ r.freq = 0 ∧
      (∀ i : Fin 6, z[i].toInt = (decodeFrame F (Vector.replicate 6 0))[i] ∧ r.sample[i].toInt = z[i].toInt)) ∧
    (∀ F : Frame, validate F = false → complete b (.frame F) = {
      block := { b with cnt := 0, sess := .idle }
      rsp := some { op := 1, status := .recCrc, sample := Vector.replicate 6 0, freq := 0 } }) ∧
    complete b .short = {
      block := { b with cnt := 0, sess := .idle }
      rsp := some { op := 1, status := .recShort, sample := Vector.replicate 6 0, freq := 0 } } ∧
    complete b .timeout = {
      block := { b with cnt := 0, sess := .idle }
      rsp := some { op := 1, status := .recTimeout, sample := Vector.replicate 6 0, freq := 0 } }

/-- R125: a valid frame is decoded against ZREF, exactly, and recorded; every other outcome writes CNT and SESS only. -/
def Obligations.CompletionInReading : Prop :=
  ∀ b : Block, b.sess = .reading →
    (∀ F : Frame, validate F = true → ∃ r : Response,
      complete b (.frame F) = {
        block := { b with count := b.count + 1, freq := (estRecord b).freq, cnt := 0, sess := .ready }
        rsp := some r } ∧
      r.op = 2 ∧ r.status = .ok ∧ r.freq = (estRecord b).freq ∧
      (∀ i : Fin 6, r.sample[i].toInt = (decodeFrame F (Vector.ofFn fun j => b.zref[j].toInt))[i])) ∧
    (∀ F : Frame, validate F = false → complete b (.frame F) = {
      block := { b with cnt := 0, sess := .ready }
      rsp := some { op := 2, status := .recCrc, sample := Vector.replicate 6 0, freq := 0 } }) ∧
    complete b .short = {
      block := { b with cnt := 0, sess := .ready }
      rsp := some { op := 2, status := .recShort, sample := Vector.replicate 6 0, freq := 0 } } ∧
    complete b .timeout = {
      block := { b with cnt := 0, sess := .ready }
      rsp := some { op := 2, status := .recTimeout, sample := Vector.replicate 6 0, freq := 0 } }

/-! ### The frame assembler over a whole read -/

/-- R66 to R69, R73: a read that begins with CNT = 0 and accepts `bs` (with no marker pair in it) and then the marker ends
exactly there, with FRAME of the trailing 14 bytes when 14 or more preceded the marker and SHORT otherwise: the window
and the counter are the source's `read_until` on a list. `W` is the final window. -/
def Obligations.ReadReturnsTheTrailingFourteen : Prop :=
  ∀ (s : State) (bs : List Byte) (W : Window) (F : Frame),
    busy s.block = true → s.block.cnt = 0 → hasMarker bs = false →
    W.toList = (s.block.sr.toList ++ bs ++ [0x20#8, 0x4E#8]).drop (bs.length + 2) →
    F.toList = [0x20#8, 0x4E#8] ++ W.toList.take 14 →
    ∃ t : State, runWords (byteWords (bs ++ [0x20#8, 0x4E#8])) s = .next { state := t, responses := t.rsp.toList } ∧
      t = s.react (complete { s.block with sr := W } (if 14 ≤ bs.length then .frame F else .short))

/-- R76, R53, R125: in steady state the body of any frame without a marker pair, and the next marker, give the frame's
sample against ZREF, one more sample counted, and nothing else changed but FREQ, SR and SESS. -/
def Obligations.SteadyStateReadDeliversTheSample : Prop :=
  ∀ (s : State) (raw : Vector (BitVec 16) 6),
    s.block.sess = .reading → s.block.cnt = 0 → hasMarker (bodyBytes raw) = false →
    ∃ (t : State) (r : Response),
      runWords (bodyWords raw ++ markerWords) s = .next { state := t, responses := [r] } ∧
      t.rsp = some r ∧ t.input = s.input ∧
      t.block = { s.block with
        sess := .ready, sr := t.block.sr, count := s.block.count + 1, freq := (estRecord s.block).freq } ∧
      t.block.sr.toList = bodyBytes raw ++ markerBytes ∧
      r.op = 2 ∧ r.status = .ok ∧ r.freq = t.block.freq ∧
      ∀ i : Fin 6, r.sample[i].toInt =
        if i.val < 3 then raw[i].toInt - s.block.zref[i].toInt
        else rdiv (raw[i].toInt - 10 * s.block.zref[i].toInt) 10

/-- R123, R102, R103, R105: START with calibration from IDLE, any first read that ends at a marker, then the body of any
frame without a marker pair and the next marker: the one response is START OK, and ZREF is that frame's reading. -/
def Obligations.CalibrationCapturesTheSecondRead : Prop :=
  ∀ (s : State) (x : List Byte) (raw : Vector (BitVec 16) 6),
    s.block.sess = .idle → hasMarker x = false → hasMarker (bodyBytes raw) = false →
    ∃ (t : State) (r : Response),
      runWords ([.cmd 0x09#8] ++ byteWords (x ++ markerBytes) ++ bodyWords raw ++ markerWords) s =
        .next { state := t, responses := [r] } ∧
      r.op = 1 ∧ r.status = .ok ∧ r.freq = 0 ∧
      t.block.sess = .ready ∧ t.block.cnt = 0 ∧ t.block.time = s.block.time ∧ t.block.startT = s.block.time ∧
      t.block.count = 0 ∧ t.block.freq = 0 ∧
      ∀ i : Fin 6, r.sample[i].toInt = t.block.zref[i].toInt ∧
        t.block.zref[i].toInt = if i.val < 3 then raw[i].toInt else rdiv raw[i].toInt 10

/-- R75: a body that holds the marker pair once costs exactly two REC_SHORT responses and is never delivered. -/
def Obligations.MarkerInsideABodyCostsTwoShort : Prop :=
  ∀ (s : State) (x y : List Byte),
    s.block.sess = .ready → x.length + y.length = 12 → hasMarker x = false → hasMarker y = false →
    ∃ t : State,
      runWords ([.cmd 0x02#8] ++ byteWords (x ++ markerBytes) ++ [.cmd 0x02#8] ++ byteWords (y ++ markerBytes)) s =
        .next {
          state := t
          responses := List.replicate 2 ({ op := 2, status := .recShort, sample := Vector.replicate 6 0, freq := 0 } : Response) } ∧
      t.block = { s.block with cnt := 0, sr := t.block.sr }

/-- R106 (a): what the capture read yields is a function of the bytes it accepts: from any two states in which it
begins, the same bytes give the same responses and the same zero reference. -/
def Obligations.CalibrationIsAFunctionOfTheBytes : Prop :=
  ∀ (s t : State) (bs : List Byte) (a c : TraceEnd),
    s.block.sess = .calCapture → s.block.cnt = 0 → t.block.sess = .calCapture → t.block.cnt = 0 →
    runWords (byteWords bs) s = .next a → runWords (byteWords bs) t = .next c →
    a.responses = c.responses ∧ a.state.block.sess = c.state.block.sess ∧
      (a.state.block.sess = .ready → a.state.block.zref = c.state.block.zref)

/-- R71, R13 (93_implementation_defined.md U8): bytes left in SR by earlier reads take part in nothing: two states that
differ in them only give the same response to every event and go on differing in such bytes only. -/
def Obligations.StaleBytesAreUnobservable : Prop :=
  ∀ (i : Instr) (s t s' t' : State), SameButStaleBytes s.block t.block →
    exec i s = .next s' → exec i t = .next t' → s'.rsp = t'.rsp ∧ SameButStaleBytes s'.block t'.block

/-- 93_implementation_defined.md U9: outside a started session the host cannot tell ZREF, START_T, COUNT and FREQ apart,
whatever it does next. -/
def Obligations.UnstartedRegistersAreUnobservable : Prop :=
  ∀ (i : Instr) (s t s' t' : State), SameButUnobserved s.block t.block →
    exec i s = .next s' → exec i t = .next t' → s'.rsp = t'.rsp ∧ SameButUnobserved s'.block t'.block

/-! ### The CRC validator -/

/-- R81, which the spec derives from R80: the table form equals the bit-by-bit form on every byte sequence; and the
values R80 to R82 list, under the CRC numbers of log entry 6. -/
def Obligations.CrcTableFormEqualsTheLoop : Prop :=
  (∀ bs : List Byte, crc16 bs = crc16ByTable bs) ∧
  [crcTable 0, crcTable 1, crcTable 2, crcTable 3, crcTable 4, crcTable 5, crcTable 6, crcTable 7] =
    [0x0000#16, 0xC0C1#16, 0xC181#16, 0x0140#16, 0xC301#16, 0x03C0#16, 0x0280#16, 0xC241#16] ∧
  crcTable 255 = 0x4040#16 ∧
  crc16 [] = 0xFFFF#16 ∧ crc16 [0x20#8, 0x4E#8] = 0x4498#16 ∧
  crc16 [0x31#8, 0x32#8, 0x33#8, 0x34#8, 0x35#8, 0x36#8, 0x37#8, 0x38#8, 0x39#8] = 0x4B37#16

/-- R83, with the field of R82: `validate` compares the CRC of the first 14 bytes of F with its last two bytes, the
earlier one the low byte. -/
def Obligations.ValidateComparesLittleEndian : Prop :=
  ∀ F : Frame, validate F = true ↔
    (crc16 [F[0], F[1], F[2], F[3], F[4], F[5], F[6], F[7], F[8], F[9], F[10], F[11], F[12], F[13]]).toNat =
      F[14].toNat + 256 * F[15].toNat

/-- R85: (a) 14 bytes with their CRC appended low byte first are valid; (b) flipping any one bit of a valid frame makes it
invalid. -/
def Obligations.CrcAcceptsItsOwnAndDetectsEveryBitFlip : Prop :=
  (∀ P : List Byte, P.length = 14 → validateBytes (P ++ crcBytes (crc16 P)) = true) ∧
  (∀ (F : Frame) (i : Fin 16) (j : Fin 8), validate F = true →
    validate (F.set i.val (F[i] ^^^ (1#8 <<< j.val)) i.isLt) = false)

/-- R84, R95: as units on byte sequences, the validator rejects and the decoder fails on everything shorter than 16
bytes. -/
def Obligations.ShortSequencesAreRejected : Prop :=
  ∀ (bs : List Byte) (Z : Vector Int 6), bs.length < 16 →
    validateBytes bs = false ∧ decodeBytes bs Z = .failure .fatalMalformed

/-! ### The sample decoder -/

/-- R90: rounding division in the three tie modes; half_even, the one the block takes by log entry 5, is symmetric in
sign. -/
def Obligations.RoundingDivisionRule : Prop :=
  (∀ n d q r : Int, n = q * d + r → 0 ≤ r → r < d → ∀ ties,
    (2 * r < d → rdivBy ties n d = q) ∧
    (d < 2 * r → rdivBy ties n d = q + 1) ∧
    (2 * r = d →
      rdivBy .halfEven n d = (if q % 2 = 0 then q else q + 1) ∧
      rdivBy .halfAway n d = (if 0 ≤ n then q + 1 else q) ∧
      rdivBy .halfUp n d = q + 1)) ∧
  (∀ n d : Int, rdiv n d = rdivBy .halfEven n d) ∧
  (∀ n d : Int, 0 < d → rdiv (-n) d = -rdiv n d)

/-- R88, R92: the decoder's value, from the bytes of the frame: little-endian signed fields, K = 10 or 1, one rounding;
the forces come out exactly `raw - Z`. -/
def Obligations.DecodeFormula : Prop :=
  ∀ (F : Frame) (Z : Vector Int 6) (raw : Vector Int 6),
    (∀ i : Fin 6, raw[i] =
      let n := F[2 + 2 * i.val].toNat + 256 * F[3 + 2 * i.val].toNat
      if n < 32768 then (n : Int) else (n : Int) - 65536) →
    ∀ i : Fin 6,
      (decodeFrame F Z)[i] = rdiv ((if i.val < 3 then 10 else 1) * raw[i] - 10 * Z[i]) 10 ∧
      (i.val < 3 → (decodeFrame F Z)[i] = raw[i] - Z[i]) ∧
      (3 ≤ i.val → (decodeFrame F Z)[i] = rdiv (raw[i] - 10 * Z[i]) 10)

/-- R93, which the spec derives from R88 to R92: the ranges of the difference and of the output for 16-bit references, the ranges of the calibration decode, and
that no value is lost in 16 and 18 bits. -/
def Obligations.DecodeNeverOverflows : Prop :=
  (∀ (F : Frame) (Z : Vector Int 6), (∀ i : Fin 6, -32768 ≤ Z[i] ∧ Z[i] ≤ 32767) → ∀ i : Fin 6,
    (i.val < 3 → -655350 ≤ difference F Z i ∧ difference F Z i ≤ 655350 ∧
      -65535 ≤ (decodeFrame F Z)[i] ∧ (decodeFrame F Z)[i] ≤ 65535) ∧
    (3 ≤ i.val → -360438 ≤ difference F Z i ∧ difference F Z i ≤ 360447 ∧
      -36044 ≤ (decodeFrame F Z)[i] ∧ (decodeFrame F Z)[i] ≤ 36045) ∧
    (toSample (decodeFrame F Z))[i].toInt = (decodeFrame F Z)[i]) ∧
  (∀ (F : Frame) (i : Fin 6),
    (i.val < 3 → -32768 ≤ (decodeFrame F zeroValues)[i] ∧ (decodeFrame F zeroValues)[i] ≤ 32767) ∧
    (3 ≤ i.val → -3277 ≤ (decodeFrame F zeroValues)[i] ∧ (decodeFrame F zeroValues)[i] ≤ 3277) ∧
    (toZeroRef (decodeFrame F zeroValues))[i].toInt = (decodeFrame F zeroValues)[i])

/-- R96: the output is the real number `raw/scale - Z/100` rounded to the nearest hundredth. -/
def Obligations.DecodeIsTheNearestHundredth : Prop :=
  ∀ (F : Frame) (Z : Vector Int 6) (i : Fin 6),
    |((rawField F i.val i.isLt : ℚ) / (if i.val < 3 then 100 else 1000) - (Z[i] : ℚ) / 100) -
      ((decodeFrame F Z)[i] : ℚ) / 100| ≤ 1 / 200

/-- R97 (a), R53: six raw values put on the wire come back: the frame is valid, its fields are the raw values, and with
zero calibration it decodes to `raw/scale` rounded to hundredths. -/
def Obligations.WireFrameDecodesToItsRawValues : Prop :=
  ∀ raw : Vector (BitVec 16) 6, ∃ F : Frame,
    frameOfBytes (wireFrame raw) = some F ∧ validate F = true ∧
    ∀ i : Fin 6, rawField F i.val i.isLt = raw[i].toInt ∧
      (decodeFrame F zeroValues)[i] = if i.val < 3 then raw[i].toInt else rdiv raw[i].toInt 10

/-- R97 (b), R106 (b): decoding the frame used for calibration against the ZREF it left gives six zeros, through the
16-bit registers, for every frame. -/
def Obligations.CalibrationFrameReadsZero : Prop :=
  ∀ F : Frame, decodeFrame F (refValues (toZeroRef (decodeFrame F zeroValues))) = Vector.replicate 6 0

/-! ### The estimator -/

/-- R113, R19, R114: what recording a sample writes, with FREQ equal to the exact rounded quotient (no overflow) and held
at zero elapsed time. -/
def Obligations.RecordComputesTheRoundedRate : Prop :=
  ∀ b : Block,
    estRecord b = { b with count := b.count + 1, freq := (estRecord b).freq } ∧
    (b.time = b.startT → (estRecord b).freq = b.freq) ∧
    (b.time ≠ b.startT → ((estRecord b).freq.toNat : Int) =
      rdiv ((((b.count.toNat + 1) % 2 ^ 32 : Nat) : Int) * (Config.tickHz : Int))
        (((b.time.toNat + 2 ^ 64 - b.startT.toNat) % 2 ^ 64 : Nat) : Int))

/-- R110, R111: after the estimator has been started, n TICK events make the elapsed time n modulo 2^64 and change
nothing but TIME. -/
def Obligations.ElapsedCountsTheTicks : Prop :=
  ∀ (n : Nat) (s : State), s.block.startT = s.block.time → ∃ e, runWords (tickWords n) s = .next e ∧
    e.responses = [] ∧ e.state.block = { s.block with time := e.state.block.time } ∧
    (elapsed e.state.block).toNat = n % 2 ^ 64

/-- R116, R18, R17, R16: only a READ answered OK counts a sample; only START and RATE_RESTART answered OK start the
estimator; TIME moves only at a TICK; nothing else but RESET touches these registers. -/
def Obligations.EstimatorIsWrittenOnlyByItsEvents : Prop :=
  ∀ (i : Instr) (s t : State), exec i s = .next t → i ≠ .reset →
    (i ≠ .tick → t.block.time = s.block.time) ∧
    (Answers t 2 .ok → t.block.startT = s.block.startT ∧ t.block.count = s.block.count + 1) ∧
    (Answers t 1 .ok ∨ Answers t 4 .ok →
      t.block.startT = s.block.time ∧ t.block.count = 0 ∧ t.block.freq = 0) ∧
    (¬Answers t 2 .ok → ¬Answers t 1 .ok → ¬Answers t 4 .ok →
      t.block.startT = s.block.startT ∧ t.block.count = s.block.count ∧ t.block.freq = s.block.freq)

/-! ### The session -/

/-- R130: every change of SESS is one of these, with the response the table gives it. -/
def Obligations.SessionChangesOnlyAlongTheTable : Prop :=
  ∀ (i : Instr) (s t : State), exec i s = .next t → t.block.sess ≠ s.block.sess →
    (i = .reset ∧ t.block.sess = .idle ∧ t.rsp = none) ∨
    (s.block.sess = .idle ∧ i = .start false ∧ t.block.sess = .ready ∧ Answers t 1 .ok) ∨
    (s.block.sess = .idle ∧ i = .start true ∧ t.block.sess = .calDiscard ∧ t.rsp = none) ∨
    (s.block.sess = .calDiscard ∧ MayEndRead i ∧ t.block.sess = .calCapture ∧ t.rsp = none) ∨
    (s.block.sess = .calCapture ∧ i = .byte 0x4E#8 ∧ t.block.sess = .ready ∧ Answers t 1 .ok) ∨
    (s.block.sess = .calCapture ∧ MayEndRead i ∧ t.block.sess = .idle ∧ AnswersRecoverable t 1) ∨
    (s.block.sess = .ready ∧ i = .read ∧ t.block.sess = .reading ∧ t.rsp = none) ∨
    (s.block.sess = .reading ∧ i = .byte 0x4E#8 ∧ t.block.sess = .ready ∧ Answers t 2 .ok) ∨
    (s.block.sess = .reading ∧ MayEndRead i ∧ t.block.sess = .ready ∧ AnswersRecoverable t 2) ∨
    (s.block.sess = .ready ∧ i = .stop ∧ t.block.sess = .stopped ∧ Answers t 3 .ok)

/-- R130, R126 (90_conflicts.md C3): STOPPED has no exit but RESET, and while it lasts only TIME can change. -/
def Obligations.StoppedIsTerminal : Prop :=
  ∀ (i : Instr) (s t : State), s.block.sess = .stopped → i ≠ .reset → exec i s = .next t →
    t.block = { s.block with time := t.block.time }

/-- R65, R166: a read in flight ends only by RESET, by TIMEOUT, or by the byte 0x4E after an 0x20 of the same read; in
particular the core never leaves BUSY by itself. -/
def Obligations.BusyEndsOnlyAtAMarkerTimeoutOrReset : Prop :=
  ∀ (i : Instr) (s t : State), busy s.block = true → exec i s = .next t → busy t.block = false →
    i = .reset ∨ i = .timeout ∨ (i = .byte 0x4E#8 ∧ s.block.sr[15] = 0x20#8 ∧ 1 ≤ s.block.cnt.toNat)

/-- R128, R137: which status answers which opcode, when the sample and the frequency are zero, what START OK and READ OK
carry; FATAL_MALFORMED is never produced. -/
def Obligations.ResponsesCarryWhatTheTableSays : Prop :=
  ∀ (s t : State) (r : Response), step s = .next t → t.rsp = some r →
    ((r.status = .ok ∧ (r.op = 1 ∨ r.op = 2 ∨ r.op = 3 ∨ r.op = 4)) ∨
      (statusClass r.status = .recoverable ∧ (r.op = 1 ∨ r.op = 2)) ∨
      (r.status = .fatalNotActive ∧ (r.op = 2 ∨ r.op = 4)) ∨
      (r.status = .fatalBadState ∧ r.op = 1) ∨
      r.status = .fatalBadCmd) ∧
    (¬(r.status = .ok ∧ (r.op = 1 ∨ r.op = 2)) → r.sample = Vector.replicate 6 0) ∧
    (¬(r.status = .ok ∧ r.op = 2) → r.freq = 0) ∧
    (r.status = .ok → r.op = 1 → ∀ i : Fin 6, r.sample[i] = t.block.zref[i].signExtend 18) ∧
    (r.status = .ok → r.op = 2 → r.freq = t.block.freq)

/-- R149, R138 to R144: a recoverable answer leaves all but CNT, SESS and the byte window, a fatal one leaves
everything. That the window may change is the model's reading of R66 beside R149: log entry 13. -/
def Obligations.ErrorsLeaveTheRestOfTheState : Prop :=
  ∀ (i : Instr) (s t : State) (r : Response), exec i s = .next t → t.rsp = some r →
    (statusClass r.status = .recoverable → t.block = { s.block with
      cnt := 0, sr := t.block.sr, sess := if r.op = 1 then .idle else .ready }) ∧
    (statusClass r.status = .fatal → t.block = s.block)

/-- R100, R15: ZREF changes only at RESET, at START without calibration in IDLE, and at a successful capture, where it
becomes the decoded frame. -/
def Obligations.ZeroReferenceHasThreeWriters : Prop :=
  ∀ (i : Instr) (s t : State), exec i s = .next t → t.block.zref ≠ s.block.zref →
    (i = .reset ∧ t.block.zref = Vector.replicate 6 0) ∨
    (i = .start false ∧ s.block.sess = .idle ∧ t.block.zref = Vector.replicate 6 0) ∨
    (i = .byte 0x4E#8 ∧ s.block.sess = .calCapture ∧ t.block.sess = .ready ∧
      ∃ F : Frame, validate F = true ∧
        ∀ k : Fin 6, t.block.zref[k].toInt = (decodeFrame F (Vector.replicate 6 0))[k])

/-! ### Invariants of every step -/

/-- R24 (a), (c): from every state, not only reachable ones, a step keeps CNT at most 16 and 0 while not BUSY. -/
def Obligations.StepKeepsTheReadCountSound : Prop :=
  ∀ s t : State, ReadCountSound s.block → step s = .next t → ReadCountSound t.block

/-- R24 (e): a step keeps ZREF zero or decoded from one frame; such a ZREF has its torque elements in -3277..3277. -/
def Obligations.StepKeepsTheReferenceDecoded : Prop :=
  (∀ s t : State, ReferenceFromFrame s.block → step s = .next t → ReferenceFromFrame t.block) ∧
  (∀ b : Block, ReferenceFromFrame b → TorqueReferenceInRange b)

/-- R24 (d): a step keeps ZREF and the estimator at their reset values for as long as no START has succeeded. -/
def Obligations.StepKeepsUntouchedBeforeStarted : Prop :=
  ∀ s t : State, UntouchedBeforeStarted s.block → step s = .next t → UntouchedBeforeStarted t.block

/-- R24 (f): a step keeps "no frequency without a sample" unless COUNT wraps in it. -/
def Obligations.StepKeepsFreqZeroWithoutSamples : Prop :=
  ∀ s t : State, s.block.count ≠ 0xFFFFFFFF#32 → FreqZeroWithoutSamples s.block → step s = .next t →
    FreqZeroWithoutSamples t.block

/-- R24, R25: the invariants hold in the machine right after reset. -/
def Obligations.ResetMeetsTheInvariants : Prop :=
  ReadCountSound State.reset.block ∧ ReferenceFromFrame State.reset.block ∧
    UntouchedBeforeStarted State.reset.block ∧ FreqZeroWithoutSamples State.reset.block

/-! ### The ports -/

/-- R56: where each field of a response lies in the packed form; with the codes of R137, whose bits 3:2 are the class
(R57). -/
def Obligations.PackedResponseLayout : Prop :=
  ([Status.ok, .recCrc, .recTimeout, .recShort, .fatalNotActive, .fatalMalformed, .fatalBadState, .fatalBadCmd].map
    statusCode) = [0x0#4, 0x4#4, 0x5#4, 0x6#4, 0x8#4, 0x9#4, 0xA#4, 0xB#4] ∧
  ∀ r : Response,
    (packResponse r).extractLsb' 0 3 = r.op ∧
    (packResponse r).extractLsb' 3 4 = statusCode r.status ∧
    (∀ i : Fin 6, (packResponse r).extractLsb' (7 + 18 * i.val) 18 = r.sample[i]) ∧
    (packResponse r).extractLsb' 115 64 = r.freq ∧
    (statusCode r.status).extractLsb' 2 2 = classCode (statusClass r.status)

/-- R61: RESET overrides the cycle; otherwise the cycle performs at most one command or receive event, TIMEOUT winning over
BYTE, and TICK last, so an event of the same cycle sees the TIME before it; commands and receive events never share a
cycle; an offered byte is not accepted beside a TIMEOUT; a cycle answers at most once. -/
def Obligations.CyclePerformsItsEventsInOrder : Prop :=
  ∀ (p : PinsIn) (s : State),
    (p.rst = true → cycle p s = runWords [.rst] s) ∧
    (p.rst = false → ∀ last, last = (if p.tick then [InputWord.tick] else []) →
      (∀ w, busy s.block = false → p.cmd = some w → cycle p s = runWords ([.cmd w] ++ last) s) ∧
      (busy s.block = false → p.cmd = none → cycle p s = runWords last s) ∧
      (busy s.block = true → p.rxTimeout = true → cycle p s = runWords ([.rx (receiveWord true 0)] ++ last) s) ∧
      (∀ d, busy s.block = true → p.rxTimeout = false → p.rx = some d →
        cycle p s = runWords ([.rx (receiveWord false d)] ++ last) s) ∧
      (busy s.block = true → p.rxTimeout = false → p.rx = none → cycle p s = runWords last s)) ∧
    (commandTaken p s.block && byteTaken p s.block) = false ∧
    (p.rxTimeout = true → byteTaken p s.block = false) ∧
    (p.rst = false → ∃ e, cycle { p with tick := false } s = .next e ∧ e.responses.length ≤ 1 ∧
      ∃ e', cycle { p with tick := true } s = .next e' ∧ e'.responses = e.responses ∧
        e'.state = { e.state with
          block := { e.state.block with time := e.state.block.time + 1 }
          rsp := none })

/-- R35, R36, R37: the byte source loses exactly the accepted byte, its oldest, and every byte not accepted stays in
order; a byte is accepted only while BUSY. That bytes arriving in a cycle stand behind the others from its end on is the
model's choice, log entry 9. -/
def Obligations.ByteSourceLosesOnlyTheAcceptedByte : Prop :=
  ∀ (d : Drive) (n : Bench), ∃ e, benchCycle d n = .next e ∧
    ((∃ b rest, n.held = b :: rest ∧ e.bench.held = rest ++ d.arrivals ∧ busy n.state.block = true ∧
        InputWord.rx (receiveWord false b) ∈ cycleEvents (benchPins d n) n.state.block) ∨
      (e.bench.held = n.held ++ d.arrivals ∧
        ∀ b : Byte, InputWord.rx (receiveWord false b) ∉ cycleEvents (benchPins d n) n.state.block))
end

