-- ==== Sys2Proof/Laws/PerInstr.lean ====
section
/-! SUPPORT. Per instruction: decoding its encoding gives it back (30_encoding.md R47, R50, R51). -/

namespace Sys2Proof.Laws.RoundTrip

def Statement (i : Instr) : Prop := decode (encode i) = .instr i

theorem nop : Statement .nop := rfl
theorem start (cal : Bool) : Statement (.start cal) := by cases cal <;> rfl
theorem read : Statement .read := rfl
theorem stop : Statement .stop := rfl
theorem rateRestart : Statement .rateRestart := rfl
theorem byte (b : Byte) : Statement (.byte b) := by revert b; unfold Statement; decide +kernel
theorem timeout : Statement .timeout := rfl
theorem tick : Statement .tick := rfl
theorem reset : Statement .reset := rfl

end Sys2Proof.Laws.RoundTrip
end

