-- ==== Sys2Proof/Laws/State.lean ====
section
/-! SUPPORT. One lemma per field per named update, so that no later proof unfolds a record update. -/

namespace Sys2Proof.Machine

/-! ### `State.react` -/

@[simp] theorem State.react_block (s : State) (r : Reaction) : (s.react r).block = r.block := rfl
@[simp] theorem State.react_rsp (s : State) (r : Reaction) : (s.react r).rsp = r.rsp := rfl
@[simp] theorem State.react_input (s : State) (r : Reaction) : (s.react r).input = s.input := rfl

/-! ### Reactions -/

@[simp] theorem unchanged_block (b : Block) : (unchanged b).block = b := rfl
@[simp] theorem unchanged_rsp (b : Block) : (unchanged b).rsp = none := rfl
@[simp] theorem respond_block (b : Block) (op : BitVec 3) (st : Status) (v : Sample) (f : BitVec 64) : (respond b op st v f).block = b := rfl
@[simp] theorem respond_rsp (b : Block) (op : BitVec 3) (st : Status) (v : Sample) (f : BitVec 64) : (respond b op st v f).rsp = some { op := op, status := st, sample := v, freq := f } := rfl
@[simp] theorem raise_block (b : Block) (st : Status) (op : BitVec 3) : (raise b st op).block = b := rfl
@[simp] theorem raise_rsp (b : Block) (st : Status) (op : BitVec 3) : (raise b st op).rsp = some { op := op, status := st, sample := zeroSample, freq := 0 } := rfl

/-! ### `estStart` (44_rate_estimator.md R112) -/

@[simp] theorem estStart_sess (b : Block) : (estStart b).sess = b.sess := rfl
@[simp] theorem estStart_cnt (b : Block) : (estStart b).cnt = b.cnt := rfl
@[simp] theorem estStart_sr (b : Block) : (estStart b).sr = b.sr := rfl
@[simp] theorem estStart_zref (b : Block) : (estStart b).zref = b.zref := rfl
@[simp] theorem estStart_time (b : Block) : (estStart b).time = b.time := rfl
@[simp] theorem estStart_startT (b : Block) : (estStart b).startT = b.time := rfl
@[simp] theorem estStart_count (b : Block) : (estStart b).count = 0 := rfl
@[simp] theorem estStart_freq (b : Block) : (estStart b).freq = 0 := rfl

/-! ### `estRecord` (44_rate_estimator.md R113) -/

@[simp] theorem estRecord_sess (b : Block) : (estRecord b).sess = b.sess := rfl
@[simp] theorem estRecord_cnt (b : Block) : (estRecord b).cnt = b.cnt := rfl
@[simp] theorem estRecord_sr (b : Block) : (estRecord b).sr = b.sr := rfl
@[simp] theorem estRecord_zref (b : Block) : (estRecord b).zref = b.zref := rfl
@[simp] theorem estRecord_time (b : Block) : (estRecord b).time = b.time := rfl
@[simp] theorem estRecord_startT (b : Block) : (estRecord b).startT = b.startT := rfl
@[simp] theorem estRecord_count (b : Block) : (estRecord b).count = b.count + 1 := rfl
@[simp] theorem estRecord_freq (b : Block) : (estRecord b).freq = freqNext b.freq (b.count + 1) (elapsed b) := rfl

/-! ### `completeDiscard` (43_calibration.md R102) -/

@[simp] theorem completeDiscard_sess (b : Block) : (completeDiscard b).block.sess = .calCapture := rfl
@[simp] theorem completeDiscard_cnt (b : Block) : (completeDiscard b).block.cnt = 0 := rfl
@[simp] theorem completeDiscard_sr (b : Block) : (completeDiscard b).block.sr = b.sr := rfl
@[simp] theorem completeDiscard_zref (b : Block) : (completeDiscard b).block.zref = b.zref := rfl
@[simp] theorem completeDiscard_time (b : Block) : (completeDiscard b).block.time = b.time := rfl
@[simp] theorem completeDiscard_startT (b : Block) : (completeDiscard b).block.startT = b.startT := rfl
@[simp] theorem completeDiscard_count (b : Block) : (completeDiscard b).block.count = b.count := rfl
@[simp] theorem completeDiscard_freq (b : Block) : (completeDiscard b).block.freq = b.freq := rfl
@[simp] theorem completeDiscard_rsp (b : Block) : (completeDiscard b).rsp = none := rfl

/-! ### `captureReference` (43_calibration.md R103) -/

@[simp] theorem captureReference_sess (b : Block) (F : Frame) : (captureReference b F).block.sess = .ready := rfl
@[simp] theorem captureReference_cnt (b : Block) (F : Frame) : (captureReference b F).block.cnt = 0 := rfl
@[simp] theorem captureReference_sr (b : Block) (F : Frame) : (captureReference b F).block.sr = b.sr := rfl
@[simp] theorem captureReference_zref (b : Block) (F : Frame) : (captureReference b F).block.zref = toZeroRef (decodeFrame F zeroValues) := rfl
@[simp] theorem captureReference_time (b : Block) (F : Frame) : (captureReference b F).block.time = b.time := rfl
@[simp] theorem captureReference_startT (b : Block) (F : Frame) : (captureReference b F).block.startT = b.time := rfl
@[simp] theorem captureReference_count (b : Block) (F : Frame) : (captureReference b F).block.count = 0 := rfl
@[simp] theorem captureReference_freq (b : Block) (F : Frame) : (captureReference b F).block.freq = 0 := rfl
@[simp] theorem captureReference_rsp (b : Block) (F : Frame) : (captureReference b F).rsp =
    some { op := opStart, status := .ok, sample := toSample (decodeFrame F zeroValues), freq := 0 } := rfl

/-! ### `abortCalibration` (43_calibration.md R104) -/

@[simp] theorem abortCalibration_sess (b : Block) (st : Status) : (abortCalibration b st).block.sess = .idle := rfl
@[simp] theorem abortCalibration_cnt (b : Block) (st : Status) : (abortCalibration b st).block.cnt = 0 := rfl
@[simp] theorem abortCalibration_sr (b : Block) (st : Status) : (abortCalibration b st).block.sr = b.sr := rfl
@[simp] theorem abortCalibration_zref (b : Block) (st : Status) : (abortCalibration b st).block.zref = b.zref := rfl
@[simp] theorem abortCalibration_time (b : Block) (st : Status) : (abortCalibration b st).block.time = b.time := rfl
@[simp] theorem abortCalibration_startT (b : Block) (st : Status) : (abortCalibration b st).block.startT = b.startT := rfl
@[simp] theorem abortCalibration_count (b : Block) (st : Status) : (abortCalibration b st).block.count = b.count := rfl
@[simp] theorem abortCalibration_freq (b : Block) (st : Status) : (abortCalibration b st).block.freq = b.freq := rfl
@[simp] theorem abortCalibration_rsp (b : Block) (st : Status) : (abortCalibration b st).rsp = some { op := opStart, status := st, sample := zeroSample, freq := 0 } := rfl

/-! ### `deliverSample` (45_session_commands.md R125) -/

@[simp] theorem deliverSample_sess (b : Block) (F : Frame) : (deliverSample b F).block.sess = .ready := rfl
@[simp] theorem deliverSample_cnt (b : Block) (F : Frame) : (deliverSample b F).block.cnt = 0 := rfl
@[simp] theorem deliverSample_sr (b : Block) (F : Frame) : (deliverSample b F).block.sr = b.sr := rfl
@[simp] theorem deliverSample_zref (b : Block) (F : Frame) : (deliverSample b F).block.zref = b.zref := rfl
@[simp] theorem deliverSample_time (b : Block) (F : Frame) : (deliverSample b F).block.time = b.time := rfl
@[simp] theorem deliverSample_startT (b : Block) (F : Frame) : (deliverSample b F).block.startT = b.startT := rfl
@[simp] theorem deliverSample_count (b : Block) (F : Frame) : (deliverSample b F).block.count = b.count + 1 := rfl
@[simp] theorem deliverSample_freq (b : Block) (F : Frame) : (deliverSample b F).block.freq = freqNext b.freq (b.count + 1) (elapsed b) := rfl
@[simp] theorem deliverSample_rsp (b : Block) (F : Frame) : (deliverSample b F).rsp =
    some {
      op := opRead, status := .ok
      sample := toSample (decodeFrame F (refValues b.zref))
      freq := freqNext b.freq (b.count + 1) (elapsed b) } := rfl

/-! ### `failRead` (45_session_commands.md R125) -/

@[simp] theorem failRead_sess (b : Block) (st : Status) : (failRead b st).block.sess = .ready := rfl
@[simp] theorem failRead_cnt (b : Block) (st : Status) : (failRead b st).block.cnt = 0 := rfl
@[simp] theorem failRead_sr (b : Block) (st : Status) : (failRead b st).block.sr = b.sr := rfl
@[simp] theorem failRead_zref (b : Block) (st : Status) : (failRead b st).block.zref = b.zref := rfl
@[simp] theorem failRead_time (b : Block) (st : Status) : (failRead b st).block.time = b.time := rfl
@[simp] theorem failRead_startT (b : Block) (st : Status) : (failRead b st).block.startT = b.startT := rfl
@[simp] theorem failRead_count (b : Block) (st : Status) : (failRead b st).block.count = b.count := rfl
@[simp] theorem failRead_freq (b : Block) (st : Status) : (failRead b st).block.freq = b.freq := rfl
@[simp] theorem failRead_rsp (b : Block) (st : Status) : (failRead b st).rsp = some { op := opRead, status := st, sample := zeroSample, freq := 0 } := rfl

/-! ### Reset (10_state.md R25) -/

@[simp] theorem Block.reset_sess  : Block.reset.sess = .idle := rfl
@[simp] theorem Block.reset_cnt  : Block.reset.cnt = 0 := rfl
@[simp] theorem Block.reset_sr  : Block.reset.sr = Vector.replicate 16 0 := rfl
@[simp] theorem Block.reset_zref  : Block.reset.zref = Vector.replicate 6 0 := rfl
@[simp] theorem Block.reset_time  : Block.reset.time = 0 := rfl
@[simp] theorem Block.reset_startT  : Block.reset.startT = 0 := rfl
@[simp] theorem Block.reset_count  : Block.reset.count = 0 := rfl
@[simp] theorem Block.reset_freq  : Block.reset.freq = 0 := rfl
@[simp] theorem State.reset_block  : State.reset.block = Block.reset := rfl
@[simp] theorem State.reset_rsp  : State.reset.rsp = none := rfl
@[simp] theorem State.reset_input  : State.reset.input = [] := rfl

end Sys2Proof.Machine
end

