-- ==== Sys2Proof/Laws/Ops.lean ====
section
/-! SUPPORT. What each shared operation can do, said once, for the provers to cite instead of unfolding it. -/

namespace Sys2Proof.Machine

/-! ### BUSY and acceptance (10_state.md R12, 40_frame_assembler.md R74, 45_session_commands.md R120) -/

theorem busy_iff (b : Block) :
    busy b = true ↔ b.sess = .calDiscard ∨ b.sess = .calCapture ∨ b.sess = .reading := by
  unfold busy; cases b.sess <;> simp

theorem not_busy_iff (b : Block) :
    busy b = false ↔ b.sess = .idle ∨ b.sess = .ready ∨ b.sess = .stopped := by
  unfold busy; cases b.sess <;> simp

theorem busy_congr {b c : Block} (h : b.sess = c.sess) : busy b = busy c := by
  unfold busy; rw [h]

theorem acceptCommand_of_busy {b : Block} (h : busy b = true) (r : Reaction) : acceptCommand b r = unchanged b := by
  simp [acceptCommand, cmdReady, h]

theorem acceptCommand_of_not_busy {b : Block} (h : busy b = false) (r : Reaction) : acceptCommand b r = r := by
  simp [acceptCommand, cmdReady, h]

theorem acceptReceive_of_busy {b : Block} (h : busy b = true) (r : Reaction) : acceptReceive b r = r := by
  simp [acceptReceive, rxReady, h]

theorem acceptReceive_of_not_busy {b : Block} (h : busy b = false) (r : Reaction) : acceptReceive b r = unchanged b := by
  simp [acceptReceive, rxReady, h]

theorem react_unchanged (s : State) : s.react (unchanged s.block) = { s with rsp := none } := rfl

/-! ### The meanings, one equation each -/

theorem exec_nop (s : State) : exec .nop s = .next (s.react (acceptCommand s.block (unchanged s.block))) := rfl
theorem exec_start (cal : Bool) (s : State) :
    exec (.start cal) s = .next (s.react (acceptCommand s.block (startSession s.block cal))) := rfl
theorem exec_read (s : State) : exec .read s = .next (s.react (acceptCommand s.block (beginRead s.block))) := rfl
theorem exec_stop (s : State) : exec .stop s = .next (s.react (acceptCommand s.block (stopSession s.block))) := rfl
theorem exec_rateRestart (s : State) :
    exec .rateRestart s = .next (s.react (acceptCommand s.block (restartRate s.block))) := rfl
theorem exec_byte (d : Byte) (s : State) :
    exec (.byte d) s = .next (s.react (acceptReceive s.block (takeByte s.block d))) := rfl
theorem exec_timeout (s : State) :
    exec .timeout s = .next (s.react (acceptReceive s.block (complete s.block .timeout))) := rfl
theorem exec_tick (s : State) :
    exec .tick s = .next (s.react { block := { s.block with time := s.block.time + 1 }, rsp := none }) := rfl
theorem exec_reset (s : State) : exec .reset s = .next (s.react { block := Block.reset, rsp := none }) := rfl

/-! ### The assembler (40_frame_assembler.md) -/

theorem srPush_shift (sr : Window) (d : Byte) (i : Nat) (h : i < 15) : (srPush sr d)[i] = sr[i + 1] := by
  simp [srPush, h]

@[simp] theorem srPush_newest (sr : Window) (d : Byte) : (srPush sr d)[15] = d := by
  simp [srPush]

/-- The window after a push, as a list: the oldest byte is lost, the new one stands last. -/
theorem srPush_toList (sr : Window) (d : Byte) : (srPush sr d).toList = sr.toList.drop 1 ++ [d] := by
  apply List.ext_getElem
  · simp
  · intro i h1 h2
    simp only [Vector.length_toList] at h1
    rcases Nat.lt_or_ge i 15 with h | h
    · rw [List.getElem_append_left (by simp; omega)]
      simp [srPush_shift sr d i h]
    · obtain rfl : i = 15 := by omega
      simp

@[simp] theorem cntNext_toNat (c : BitVec 5) : (cntNext c).toNat = min (c.toNat + 1) 16 := by
  simp only [cntNext, BitVec.toNat_ofNat]
  exact Nat.mod_eq_of_lt (by omega)

theorem cntNext_eq_of_toNat {c d : BitVec 5} (h : d.toNat = min (c.toNat + 1) 16) : cntNext c = d :=
  BitVec.eq_of_toNat_eq (by rw [cntNext_toNat, h])

theorem markerMatch_iff (sr : Window) (c : BitVec 5) :
    markerMatch sr c = true ↔ 2 ≤ c.toNat ∧ sr[14] = 0x20#8 ∧ sr[15] = 0x4E#8 := by
  simp [markerMatch, Config.marker0, Config.marker1, and_assoc]

@[simp] theorem candidateFrame_zero (sr : Window) : (candidateFrame sr)[0] = 0x20#8 := by
  simp [candidateFrame, Config.marker0]

@[simp] theorem candidateFrame_one (sr : Window) : (candidateFrame sr)[1] = 0x4E#8 := by
  simp [candidateFrame, Config.marker1]

theorem candidateFrame_body (sr : Window) (i : Nat) (h : i < 14) : (candidateFrame sr)[2 + i] = sr[i] := by
  simp [candidateFrame, show 2 + i ≠ 1 from by omega]

/-- The candidate frame as a list: the constant marker, then the 14 oldest bytes of the window (R68). -/
theorem candidateFrame_toList (sr : Window) :
    (candidateFrame sr).toList = [0x20#8, 0x4E#8] ++ sr.toList.take 14 := by
  apply List.ext_getElem
  · simp
  · intro i h1 h2
    simp only [Vector.length_toList] at h1
    match i, h1 with
    | 0, _ => simp
    | 1, _ => simp
    | k + 2, h1 => simp [candidateFrame]

theorem matchOutcome_frame {sr : Window} {c : BitVec 5} (h : c.toNat = 16) :
    matchOutcome sr c = .frame (candidateFrame sr) := by
  have : c = 16#5 := BitVec.eq_of_toNat_eq h
  simp [matchOutcome, this]

theorem matchOutcome_short {sr : Window} {c : BitVec 5} (h : c.toNat ≠ 16) : matchOutcome sr c = .short := by
  have : c ≠ 16#5 := fun e => h (by rw [e]; rfl)
  simp [matchOutcome, this]

/-- An accepted byte either completes the read or is only pushed and counted (R66). -/
theorem takeByte_cases (b : Block) (d : Byte) :
    (markerMatch (srPush b.sr d) (cntNext b.cnt) = true ∧
      takeByte b d = complete { b with sr := srPush b.sr d } (matchOutcome (srPush b.sr d) (cntNext b.cnt))) ∨
    (markerMatch (srPush b.sr d) (cntNext b.cnt) = false ∧
      takeByte b d = { block := { b with sr := srPush b.sr d, cnt := cntNext b.cnt }, rsp := none }) := by
  unfold takeByte
  cases h : markerMatch (srPush b.sr d) (cntNext b.cnt)
  · exact .inr ⟨rfl, if_neg (by simp [h])⟩
  · exact .inl ⟨rfl, if_pos h⟩

/-- Everything the completion of a read can do while BUSY (R72, 43_calibration.md R102 to R104, 45_session_commands.md
R125). -/
theorem complete_cases {b : Block} (o : ReadOutcome) (h : busy b = true) :
    (b.sess = .calDiscard ∧ complete b o = completeDiscard b) ∨
    (b.sess = .calCapture ∧ ∃ F, o = .frame F ∧ validate F = true ∧ complete b o = captureReference b F) ∨
    (b.sess = .calCapture ∧ ∃ st, (st = .recCrc ∨ st = .recShort ∨ st = .recTimeout) ∧
      complete b o = abortCalibration b st) ∨
    (b.sess = .reading ∧ ∃ F, o = .frame F ∧ validate F = true ∧ complete b o = deliverSample b F) ∨
    (b.sess = .reading ∧ ∃ st, (st = .recCrc ∨ st = .recShort ∨ st = .recTimeout) ∧
      complete b o = failRead b st) := by
  rcases (busy_iff b).mp h with hs | hs | hs
  · exact .inl ⟨hs, by simp [complete, hs]⟩
  · cases o with
    | frame F => cases hv : validate F <;> simp [complete, hs, completeCapture, hv]
    | short => simp [complete, hs, completeCapture]
    | timeout => simp [complete, hs, completeCapture]
  · cases o with
    | frame F => cases hv : validate F <;> simp [complete, hs, completeReading, hv]
    | short => simp [complete, hs, completeReading]
    | timeout => simp [complete, hs, completeReading]

/-! ### Rounding division (42_sample_decoder.md R90) -/

/-- `rdivBy` is a nearest integer to the quotient, in every tie mode. -/
theorem rdivBy_nearest (ties : RoundTies) (n : Int) {d : Int} (hd : 0 < d) :
    -d ≤ 2 * (n - d * rdivBy ties n d) ∧ 2 * (n - d * rdivBy ties n d) ≤ d := by
  have h1 := Int.emod_nonneg n hd.ne'
  have h2 := Int.emod_lt_of_pos n hd
  have h3 := Int.mul_ediv_add_emod n d
  have h4 : n - n / d * d = n % d := by rw [Int.mul_comm]; omega
  have h5 : d * (n / d + 1) = d * (n / d) + d := by ring
  cases ties <;> simp only [rdivBy, h4] <;> split_ifs <;> omega

/-! ### The step and traces (20_memory.md R41) -/

theorem step_of_instr {s : State} {x : InputWord} {rest : List InputWord} {i : Instr} (hs : s.input = x :: rest)
    (hx : Sys2Proof.decode x = .instr i) : step s = exec i { s with input := rest } := by
  simp [step, hs, perform, hx]

/-- Performing the input word of an instruction runs it. -/
theorem perform_of_instr {x : InputWord} {i : Instr} (hx : Sys2Proof.decode x = .instr i) (s : State) :
    perform x s = exec i s := by
  simp [perform, hx]

theorem perform_byte (d : Byte) (s : State) : perform (.rx (receiveWord false d)) s = exec (.byte d) s :=
  perform_of_instr (Sys2Proof.Laws.RoundTrip.byte d) s

theorem runWords_nil (s : State) : runWords [] s = .next { state := s, responses := [] } := rfl

theorem runWords_cons {x : InputWord} {rest : List InputWord} {s s' : State} (h : perform x s = .next s') :
    runWords (x :: rest) s = (match runWords rest s' with
      | .next t => .next { t with responses := s'.rsp.toList ++ t.responses }
      | .fault r => .fault r
      | .refused r => .refused r) := by
  cases hr : runWords rest s' <;> simp [runWords, h, hr]

/-- A trace is the trace of its first part followed by that of its second, the responses in order (R42). -/
theorem runWords_append {xs ys : List InputWord} {s : State} {e f : TraceEnd} (hx : runWords xs s = .next e)
    (hy : runWords ys e.state = .next f) :
    runWords (xs ++ ys) s = .next { state := f.state, responses := e.responses ++ f.responses } := by
  induction xs generalizing s e with
  | nil =>
    simp only [runWords_nil, Host.Outcome.next.injEq] at hx
    subst hx
    simpa using hy
  | cons x xs ih =>
    cases hp : perform x s with
    | fault r => simp [runWords, hp] at hx
    | refused r => simp [runWords, hp] at hx
    | next s' =>
      rw [runWords_cons hp] at hx
      cases hr : runWords xs s' with
      | fault r => simp [hr] at hx
      | refused r => simp [hr] at hx
      | next t =>
        simp only [hr, Host.Outcome.next.injEq] at hx
        subst hx
        simp [runWords_cons hp, ih hr hy]

end Sys2Proof.Machine
end

