-- ==== Sys2Proof/Laws/Inversion.lean ====
section
/-! SUPPORT. Everything one event can do, said once: if `exec i s` answers a next state, one of twelve cases holds. -/

namespace Sys2Proof.Machine

/-- What an event does in the state `s`: the reaction of the block, case by case. -/
inductive EventCase (s : State) : Instr → Reaction → Prop
  /-- a command offered while BUSY (45_session_commands.md R120) -/
  | commandWaits (i r) : busy s.block = true → (∀ d, i ≠ .byte d) → i ≠ .timeout → i ≠ .tick → i ≠ .reset →
      r = unchanged s.block → EventCase s i r
  /-- a byte or a timeout offered while not BUSY (40_frame_assembler.md R74) -/
  | receiveWaits (i r) : busy s.block = false → Safety.MayEndRead i → r = unchanged s.block → EventCase s i r
  /-- NOP (45_session_commands.md R122) -/
  | nothing (r) : r = unchanged s.block → EventCase s .nop r
  /-- START accepted (R123) -/
  | starts (cal r) : busy s.block = false → r = startSession s.block cal → EventCase s (.start cal) r
  /-- READ accepted (R124) -/
  | reads (r) : busy s.block = false → r = beginRead s.block → EventCase s .read r
  /-- STOP accepted (R126) -/
  | stops (r) : busy s.block = false → r = stopSession s.block → EventCase s .stop r
  /-- RATE_RESTART accepted (R127) -/
  | restarts (r) : busy s.block = false → r = restartRate s.block → EventCase s .rateRestart r
  /-- BYTE accepted without a match (40_frame_assembler.md R66) -/
  | pushes (d r) : busy s.block = true → markerMatch (srPush s.block.sr d) (cntNext s.block.cnt) = false →
      r = { block := { s.block with sr := srPush s.block.sr d, cnt := cntNext s.block.cnt }, rsp := none } →
      EventCase s (.byte d) r
  /-- BYTE that completes the read (R66, R72) -/
  | completes (d r) : busy s.block = true → markerMatch (srPush s.block.sr d) (cntNext s.block.cnt) = true →
      r = complete { s.block with sr := srPush s.block.sr d }
        (matchOutcome (srPush s.block.sr d) (cntNext s.block.cnt)) →
      EventCase s (.byte d) r
  /-- TIMEOUT accepted (R70) -/
  | timesOut (r) : busy s.block = true → r = complete s.block .timeout → EventCase s .timeout r
  /-- TICK (44_rate_estimator.md R110) -/
  | ticks (r) : r = { block := { s.block with time := s.block.time + 1 }, rsp := none } → EventCase s .tick r
  /-- RESET (70_reset_and_hazards.md R156) -/
  | resets (r) : r = { block := Block.reset, rsp := none } → EventCase s .reset r

theorem exec_cases {i : Instr} {s t : State} (h : exec i s = .next t) : ∃ r, t = s.react r ∧ EventCase s i r := by
  cases hb : busy s.block
  · cases i with
    | nop => rw [exec_nop, acceptCommand_of_not_busy hb] at h; cases h; exact ⟨_, rfl, .nothing _ rfl⟩
    | start c => rw [exec_start, acceptCommand_of_not_busy hb] at h; cases h; exact ⟨_, rfl, .starts _ _ hb rfl⟩
    | read => rw [exec_read, acceptCommand_of_not_busy hb] at h; cases h; exact ⟨_, rfl, .reads _ hb rfl⟩
    | stop => rw [exec_stop, acceptCommand_of_not_busy hb] at h; cases h; exact ⟨_, rfl, .stops _ hb rfl⟩
    | rateRestart =>
      rw [exec_rateRestart, acceptCommand_of_not_busy hb] at h; cases h; exact ⟨_, rfl, .restarts _ hb rfl⟩
    | byte d =>
      rw [exec_byte, acceptReceive_of_not_busy hb] at h; cases h
      exact ⟨_, rfl, .receiveWaits _ _ hb (.inr ⟨d, rfl⟩) rfl⟩
    | timeout =>
      rw [exec_timeout, acceptReceive_of_not_busy hb] at h; cases h
      exact ⟨_, rfl, .receiveWaits _ _ hb (.inl rfl) rfl⟩
    | tick => rw [exec_tick] at h; cases h; exact ⟨_, rfl, .ticks _ rfl⟩
    | reset => rw [exec_reset] at h; cases h; exact ⟨_, rfl, .resets _ rfl⟩
  · cases i with
    | nop => rw [exec_nop, acceptCommand_of_busy hb] at h; cases h; exact ⟨_, rfl, .nothing _ rfl⟩
    | start c =>
      rw [exec_start, acceptCommand_of_busy hb] at h; cases h
      exact ⟨_, rfl, .commandWaits _ _ hb (by simp) (by simp) (by simp) (by simp) rfl⟩
    | read =>
      rw [exec_read, acceptCommand_of_busy hb] at h; cases h
      exact ⟨_, rfl, .commandWaits _ _ hb (by simp) (by simp) (by simp) (by simp) rfl⟩
    | stop =>
      rw [exec_stop, acceptCommand_of_busy hb] at h; cases h
      exact ⟨_, rfl, .commandWaits _ _ hb (by simp) (by simp) (by simp) (by simp) rfl⟩
    | rateRestart =>
      rw [exec_rateRestart, acceptCommand_of_busy hb] at h; cases h
      exact ⟨_, rfl, .commandWaits _ _ hb (by simp) (by simp) (by simp) (by simp) rfl⟩
    | byte d =>
      rw [exec_byte, acceptReceive_of_busy hb] at h; cases h
      rcases takeByte_cases s.block d with ⟨hm, e⟩ | ⟨hm, e⟩
      · exact ⟨_, rfl, .completes _ _ hb hm e⟩
      · exact ⟨_, rfl, .pushes _ _ hb hm e⟩
    | timeout => rw [exec_timeout, acceptReceive_of_busy hb] at h; cases h; exact ⟨_, rfl, .timesOut _ hb rfl⟩
    | tick => rw [exec_tick] at h; cases h; exact ⟨_, rfl, .ticks _ rfl⟩
    | reset => rw [exec_reset] at h; cases h; exact ⟨_, rfl, .resets _ rfl⟩

/-- A matching byte is 0x4E and follows an 0x20 of the same read (40_frame_assembler.md R67). -/
theorem marker_bytes_of_match {b : Block} {d : Byte} (h : markerMatch (srPush b.sr d) (cntNext b.cnt) = true) :
    d = 0x4E#8 ∧ b.sr[15] = 0x20#8 ∧ 1 ≤ b.cnt.toNat := by
  rw [markerMatch_iff, srPush_newest, srPush_shift _ _ 14 (by omega), cntNext_toNat] at h
  exact ⟨h.2.2, h.2.1, by omega⟩

/-- Everything a step can do: nothing, an instruction, or the refusal of a reserved command word. -/
theorem step_cases {s t : State} (h : step s = .next t) :
    (s.input = [] ∧ t = { s with rsp := none }) ∨
    (∃ x rest i, s.input = x :: rest ∧ Sys2Proof.decode x = .instr i ∧ exec i { s with input := rest } = .next t) ∨
    (∃ x rest w, s.input = x :: rest ∧ Sys2Proof.decode x = .rejected (.reservedCommand w) ∧
      t = { s with
        input := rest
        rsp := if busy s.block then none
          else some { op := commandOp w, status := .fatalBadCmd, sample := zeroSample, freq := 0 } }) := by
  unfold step at h
  cases hi : s.input with
  | nil => simp only [hi, idleStep, Host.Outcome.next.injEq] at h; exact .inl ⟨rfl, by rw [← h, react_unchanged, hi]⟩
  | cons x rest =>
    simp only [hi, perform] at h
    cases hd : Sys2Proof.decode x with
    | instr i => rw [hd] at h; exact .inr (.inl ⟨x, rest, i, rfl, hd, h⟩)
    | rejected e =>
      cases e with
      | reservedCommand w =>
        refine .inr (.inr ⟨x, rest, w, rfl, hd, ?_⟩)
        rw [hd] at h
        simp only [execReserved, Host.Outcome.next.injEq] at h
        subst h
        cases hb : busy s.block <;> simp [acceptCommand, cmdReady, hb, State.react, raise, respond, unchanged]

end Sys2Proof.Machine
end

