-- ==== Sys2Proof/Tests/Slice0.lean ====
section
/-! SUPPORT. Tests. Expected values come from the spec's worked examples and 95_test_vectors.md, named at each test. The
`witness_` theorems show, for every obligation with hypotheses, a concrete case that meets all of them together. -/

open Sys2Proof Sys2Proof.Machine Sys2Proof.Safety

namespace Sys2Proof.Tests

/-! ### Small states -/

/-- The reset block in session state `x` with `n` bytes of the read accepted. -/
def blk (x : Sess) (n : BitVec 5) : Block := { Block.reset with sess := x, cnt := n }

/-- A machine around a block. -/
def mach (b : Block) : State := { block := b, rsp := none, input := [] }

/-- The machine in session state `x`, no byte accepted, all else as after reset. -/
def at_ (x : Sess) : State := mach (blk x 0)

/-- A window whose last byte completes the marker of a body held in its other bytes. -/
def windowOf (body : Vector Byte 14) : Window := (#v[0x00#8] ++ body) ++ #v[0x20#8]

/-- The machine in `x` with a whole body and the first marker byte accepted (CNT = 15), at TIME `now`. -/
def full (x : Sess) (body : Vector Byte 14) (now : BitVec 64) : State :=
  mach { Block.reset with sess := x, cnt := 15, sr := windowOf body, time := now }

/-- The state a step answers, if it answers one. -/
def result (o : Host.Outcome State Fault Refusal) : Option State :=
  match o with
  | .next s => some s
  | .fault _ => none
  | .refused _ => none

/-- The response `{op, status, zeros, 0}`. -/
def bare (op : BitVec 3) (st : Status) : Response := { op := op, status := st, sample := zeroSample, freq := 0 }

/-- 95_test_vectors.md section 2, frame G. -/
def bodyG : Vector Byte 14 :=
  #v[0x64, 0x00, 0x64, 0x00, 0x64, 0x00, 0xE8, 0x03, 0xE8, 0x03, 0xE8, 0x03, 0xCE, 0xD9]
/-- 95_test_vectors.md section 2, frame Bad. -/
def bodyBad : Vector Byte 14 :=
  #v[0x64, 0x00, 0x64, 0x00, 0x64, 0x00, 0xE8, 0x03, 0xE8, 0x03, 0xE8, 0x03, 0x00, 0x00]
/-- 95_test_vectors.md section 2, frame A. -/
def bodyA : Vector Byte 14 :=
  #v[0xD2, 0x04, 0xC9, 0xFD, 0x0F, 0x00, 0xC9, 0x09, 0x29, 0xFA, 0x07, 0x00, 0x62, 0xE4]
/-- The frame of a body. -/
def frameOf (body : Vector Byte 14) : Frame := #v[0x20#8, 0x4E#8] ++ body
/-- The raw values of frame G. -/
def rawG : Vector (BitVec 16) 6 := #v[100, 100, 100, 1000, 1000, 1000]
/-- Six times 100. -/
def hundreds : Sample := #v[100, 100, 100, 100, 100, 100]

/-! ### WellFormed: one ill-formed word per check (R48) -/

/-- Bit 4 set: the zero field. -/
theorem test_zero_field_refused :
    commandZeroField 0x10#8 = false ∧ commandOpAssigned 0x10#8 = true ∧ commandCalAllowed 0x10#8 = true ∧
      commandWellFormed 0x10#8 = false := by decide
/-- Opcode 5. -/
theorem test_unassigned_op_refused :
    commandZeroField 0x05#8 = true ∧ commandOpAssigned 0x05#8 = false ∧ commandCalAllowed 0x05#8 = true ∧
      commandWellFormed 0x05#8 = false := by decide
/-- READ with the cal bit. -/
theorem test_cal_on_read_refused :
    commandZeroField 0x0A#8 = true ∧ commandOpAssigned 0x0A#8 = true ∧ commandCalAllowed 0x0A#8 = false ∧
      commandWellFormed 0x0A#8 = false := by decide
theorem test_ill_formed_input_refused :
    inputWellFormed (.cmd 0xFF#8) = false ∧ inputWellFormed (.rx 0x1FF#9) = true ∧
      Sys2Proof.decode (.cmd 0xFF#8) = .rejected (.reservedCommand 0xFF#8) := by decide
/-- R48: 250 of the 256 words are reserved. -/
theorem test_six_words_well_formed :
    ((List.range 256).filter fun n => commandWellFormed (BitVec.ofNat 8 n)) = [0, 1, 2, 3, 4, 9] := by decide +kernel

/-! ### Decoding: words written out from R47 and R50, one constructor each -/

theorem test_decode_nop : Sys2Proof.decode (.cmd 0b00000000#8) = .instr .nop := by decide
theorem test_decode_start : Sys2Proof.decode (.cmd 0b00000001#8) = .instr (.start false) := by decide
theorem test_decode_start_cal : Sys2Proof.decode (.cmd 0b00001001#8) = .instr (.start true) := by decide
theorem test_decode_read : Sys2Proof.decode (.cmd 0b00000010#8) = .instr .read := by decide
theorem test_decode_stop : Sys2Proof.decode (.cmd 0b00000011#8) = .instr .stop := by decide
theorem test_decode_rate_restart : Sys2Proof.decode (.cmd 0b00000100#8) = .instr .rateRestart := by decide
theorem test_decode_byte : Sys2Proof.decode (.rx 0b010100101#9) = .instr (.byte 0xA5#8) := by decide
theorem test_decode_timeout : Sys2Proof.decode (.rx 0b101001110#9) = .instr .timeout := by decide
theorem test_decode_pins : Sys2Proof.decode .tick = .instr .tick ∧ Sys2Proof.decode .rst = .instr .reset := by decide
theorem test_encode_start : encode (.start true) = .cmd 0x09#8 ∧ encode (.byte 0x4E#8) = .rx 0x04E#9 := by decide
/-- The host's two questions, on the START row. -/
theorem test_table_word : decodeTableWord 8 0x09 = some (.start true) ∧
    result (step (State.reset.withFetchWord 8 0x09)) = some (at_ .calDiscard) := by decide

/-! ### One step per event -/

/-- M1. -/
theorem test_nop : result (exec .nop (at_ .ready)) = some (at_ .ready) := by decide
/-- R123 worked example, M2. -/
theorem test_start : result (exec (.start false) (mach { blk .idle 0 with time := 7, freq := 3 })) =
    some { mach { blk .ready 0 with time := 7, startT := 7 } with rsp := some (bare 1 .ok) } := by decide
/-- M11, M14. -/
theorem test_start_refused : result (exec (.start true) (at_ .stopped)) =
    some { at_ .stopped with rsp := some (bare 1 .fatalBadState) } := by decide
/-- R124. -/
theorem test_read : result (exec .read (at_ .ready)) = some (at_ .reading) := by decide
/-- R124 worked example, M15. -/
theorem test_read_stopped : result (exec .read (at_ .stopped)) =
    some { at_ .stopped with rsp := some (bare 2 .fatalNotActive) } := by decide
/-- R126 worked example. -/
theorem test_stop : result (exec .stop (at_ .ready)) = some { at_ .stopped with rsp := some (bare 3 .ok) } := by decide
/-- M17. -/
theorem test_stop_busy : result (exec .stop (at_ .reading)) = some (at_ .reading) := by decide
/-- R127 worked example. -/
theorem test_rate_restart :
    result (exec .rateRestart (mach { blk .ready 0 with time := 4200000, count := 500, freq := 119 })) =
      some { mach { blk .ready 0 with time := 4200000, startT := 4200000 } with rsp := some (bare 4 .ok) } := by decide
/-- M6. -/
theorem test_rate_restart_idle : result (exec .rateRestart (at_ .idle)) =
    some { at_ .idle with rsp := some (bare 4 .fatalNotActive) } := by decide
/-- R125 worked example, R66 worked example. -/
theorem test_byte_delivers : result (exec (.byte 0x4E) (full .reading bodyG 8333)) =
    some { mach { Block.reset with sess := .ready, sr := #v[0x64, 0x00, 0x64, 0x00, 0x64, 0x00, 0xE8, 0x03, 0xE8, 0x03, 0xE8, 0x03, 0xCE, 0xD9, 0x20, 0x4E], time := 8333, count := 1, freq := 120 } with
      rsp := some { op := 2, status := .ok, sample := hundreds, freq := 120 } } := by decide +kernel
/-- R103 worked example. -/
theorem test_byte_captures : (result (exec (.byte 0x4E) (full .calCapture bodyA 9))).map (fun t => (t.block.sess, t.block.zref, t.rsp)) =
    some (.ready, #v[1234, -567, 15, 250, -150, 1],
      some { op := 1, status := .ok, sample := #v[1234, -567, 15, 250, -150, 1], freq := 0 }) := by decide +kernel
/-- R70 worked example. -/
theorem test_timeout : result (exec .timeout (mach (blk .reading 3))) =
    some { at_ .ready with rsp := some (bare 2 .recTimeout) } := by decide
/-- M19. -/
theorem test_timeout_not_accepted : result (exec .timeout (at_ .ready)) = some (at_ .ready) := by decide
/-- R110 worked example and corner case. -/
theorem test_tick : result (exec .tick (mach { blk .reading 2 with time := 41 })) =
    some (mach { blk .reading 2 with time := 42 }) := by decide
theorem test_tick_wraps : result (exec .tick (mach { blk .idle 0 with time := 0xFFFFFFFFFFFFFFFF })) =
    some (at_ .idle) := by decide
/-- R156 worked example. -/
theorem test_reset : result (exec .reset (mach { blk .reading 9 with count := 77 })) = some State.reset := by decide
/-- M9, M21: a reserved word, accepted and not accepted. -/
theorem test_reserved_word : result (perform (.cmd 0x0A) (at_ .idle)) =
    some { at_ .idle with rsp := some (bare 2 .fatalBadCmd) } := by decide
theorem test_reserved_word_busy : result (perform (.cmd 0x05) (at_ .reading)) = some (at_ .reading) := by decide

/-! ### The units -/

/-- R104 worked example: the corrupted frame aborts the start. -/
theorem test_complete_capture_aborts : complete (blk .calCapture 15) (.frame (frameOf bodyBad)) =
    { block := blk .idle 0, rsp := some (bare 1 .recCrc) } := by decide +kernel
/-- A1, A15: the marker pair matches from the second byte of the read on, whatever SR held before. -/
theorem test_marker_match : markerMatch (bodyG ++ #v[0x20#8, 0x4E#8]) 2 = true ∧
    markerMatch (bodyG ++ #v[0x20#8, 0x4E#8]) 1 = false := by decide

/-- CRC1, CRC3, CRC4. -/
theorem test_crc16 : crc16 [] = 0xFFFF ∧ crc16 [0x20, 0x4E] = 0x4498 ∧
    crc16 [0x31, 0x32, 0x33, 0x34, 0x35, 0x36, 0x37, 0x38, 0x39] = 0x4B37 := by decide +kernel
/-- CRC12, CRC13. -/
theorem test_validate : validate (frameOf bodyG) = true ∧ validate (frameOf bodyBad) = false := by decide +kernel
/-- R90's examples with d = 10. -/
theorem test_rdiv : [14, 15, 25, 35, 5, -5, -15, -25, -6, -4].map (fun n => rdiv n 10) =
    [1, 2, 2, 4, 0, 0, -2, -2, -1, 0] := by decide
/-- The tie rows of 95_test_vectors.md section 4. -/
theorem test_rdiv_ties : [5, 25, -5, -15, -25].map (fun n => rdivBy .halfAway n 10) = [1, 3, -1, -2, -3] ∧
    [5, 25, -5, -15, -25].map (fun n => rdivBy .halfUp n 10) = [1, 3, 0, -1, -2] := by decide
/-- DEC8, DEC13, and R94's example. -/
theorem test_decode_frame : decodeFrame (frameOf bodyG) #v[100, 100, 100, 100, 100, 100] = zeroValues ∧
    decodeFrame (frameOf bodyA) zeroValues = #v[1234, -567, 15, 250, -150, 1] ∧ rdiv (2515 - 10 * 250) 10 = 2 := by
  decide +kernel
/-- E1, E7, E10, E11. -/
theorem test_freq : freqNext 0 1 8333 = 120 ∧ freqNext 0 5 2000000 = 2 ∧
    freqNext 0 0xFFFFFFFF 1 = 4294967295000000 ∧ freqNext 17 3 0 = 17 := by decide +kernel
/-- 95_test_vectors.md section 8. -/
theorem test_packed : packResponse (bare 2 .recCrc) = 0x22 ∧ packResponse (bare 5 .fatalBadCmd) = 0x5D ∧
    packResponse { op := 2, status := .ok, sample := hundreds, freq := 120 } = 0x3C000C80032000C80032000C8003202 := by
  decide +kernel

/-! ### Witnesses: the hypotheses of each obligation met together -/

theorem witness_ReservedCommandWordRefused :
    commandWellFormed 0x09#8 = true ∧ commandWellFormed 0x05#8 = false ∧ busy (at_ .ready).block = false := by decide

theorem witness_StepRunsTheDecodedEvent :
    ({ at_ .idle with input := [.cmd 0x01#8] } : State).input = .cmd 0x01#8 :: [] ∧
    Sys2Proof.decode (.cmd 0x01#8) = .instr (.start false) ∧
    Sys2Proof.decode (.cmd 0x05#8) = .rejected (.reservedCommand 0x05#8) ∧ (at_ .idle).input = [] := by decide

theorem witness_TableWordRunsNext : decodeTableWord 8 0x02 = some .read ∧ decodeTableWord 9 0x04E = some (.byte 0x4E) ∧
    decodeTableWord 16 0x100 = some .timeout ∧ decodeTableWord 1 1 = some .tick := by decide

theorem witness_EffectReadsOnlyTheBlock :
    (at_ .ready).block = ({ at_ .ready with rsp := some (bare 3 .ok), input := [.tick] } : State).block := by decide

theorem witness_ResetClearsEverything : ({ rst := true, tick := true, cmd := some 1, rx := none, rxTimeout := false } : PinsIn).rst = true := by decide

/-- The session states the three commands tell apart. -/
theorem witness_StartEffect : (at_ .idle).block.sess = .idle ∧ (at_ .ready).block.sess = .ready ∧
    (at_ .stopped).block.sess = .stopped := by decide
theorem witness_ReadEffect : (at_ .ready).block.sess = .ready ∧ (at_ .idle).block.sess = .idle ∧
    (at_ .stopped).block.sess = .stopped := by decide
theorem witness_StopEffect : busy (at_ .ready).block = false ∧ busy (at_ .idle).block = false ∧
    busy (at_ .stopped).block = false := by decide
theorem witness_RateRestartEffect : (at_ .ready).block.sess = .ready ∧ (at_ .idle).block.sess = .idle ∧
    (at_ .stopped).block.sess = .stopped := by decide

/-- The hypotheses of `ByteShiftsCountsAndCompares` on a state, a byte, the shifted window, the count and the frame. -/
abbrev ByteHyps (s : State) (d : Byte) (sr' : Window) (cnt' : BitVec 5) (F : Frame) : Prop :=
  busy s.block = true ∧ (∀ i : Fin 15, sr'[i.val] = s.block.sr[i.val + 1]) ∧ sr'[15] = d ∧
    cnt'.toNat = min (s.block.cnt.toNat + 1) 16 ∧ F[0] = 0x20#8 ∧ F[1] = 0x4E#8 ∧ (∀ i : Fin 14, F[2 + i.val] = sr'[i.val])

/-- CNT' = 16, a match; CNT' = 15, a match; CNT' = 1, no match although the two bytes are the marker. -/
theorem witness_ByteShiftsCountsAndCompares :
    ByteHyps (full .reading bodyG 0) 0x4E (bodyG ++ #v[0x20#8, 0x4E#8]) 16 (frameOf bodyG) ∧
    ByteHyps (mach { blk .reading 14 with sr := windowOf bodyG }) 0x4E (bodyG ++ #v[0x20#8, 0x4E#8]) 15 (frameOf bodyG) ∧
    ByteHyps (mach { blk .reading 0 with sr := windowOf bodyG }) 0x4E (bodyG ++ #v[0x20#8, 0x4E#8]) 1 (frameOf bodyG) ∧
    ((2 ≤ (16#5).toNat ∧ 2 ≤ (15#5).toNat) ∧ ¬(2 ≤ (1#5).toNat)) ∧
    (bodyG ++ #v[0x20#8, 0x4E#8])[14] = 0x20#8 ∧ (bodyG ++ #v[0x20#8, 0x4E#8])[15] = 0x4E#8 := by decide +kernel

theorem witness_TimeoutEffect : busy (at_ .reading).block = true ∧ (at_ .calDiscard).block.sess = .calDiscard ∧
    (at_ .calCapture).block.sess = .calCapture ∧ (at_ .reading).block.sess = .reading := by decide

theorem witness_CommandNotAcceptedWhileBusy : busy (at_ .calDiscard).block = true := by decide
theorem witness_ReceiveNotAcceptedWhileNotBusy : busy (at_ .stopped).block = false ∧
    busy ({ state := at_ .ready, held := [0x20, 0x4E] } : Bench).state.block = false := by decide

theorem witness_CompletionInCalDiscard : (blk .calDiscard 16).sess = .calDiscard := by decide
theorem witness_CompletionInCalCapture : (blk .calCapture 16).sess = .calCapture ∧
    validate (frameOf bodyA) = true ∧ validate (frameOf bodyBad) = false := by decide +kernel
theorem witness_CompletionInReading : (blk .reading 16).sess = .reading ∧
    validate (frameOf bodyG) = true ∧ validate (frameOf bodyBad) = false := by decide +kernel

/-- The hypotheses of `ReadReturnsTheTrailingFourteen`. -/
abbrev ReadHyps (s : State) (bs : List Byte) (W : Window) (F : Frame) : Prop :=
  busy s.block = true ∧ s.block.cnt = 0 ∧ hasMarker bs = false ∧
    W.toList = (s.block.sr.toList ++ bs ++ [0x20#8, 0x4E#8]).drop (bs.length + 2) ∧
    F.toList = [0x20#8, 0x4E#8] ++ W.toList.take 14

/-- 14 bytes before the marker, and 13. -/
theorem witness_ReadReturnsTheTrailingFourteen :
    ReadHyps (at_ .reading) bodyG.toList (bodyG ++ #v[0x20#8, 0x4E#8]) (frameOf bodyG) ∧
    ReadHyps (at_ .reading) (List.replicate 13 0xAA#8) ((#v[0x00#8] ++ Vector.replicate 13 0xAA#8) ++ #v[0x20#8, 0x4E#8])
      (#v[0x20#8, 0x4E#8] ++ (#v[0x00#8] ++ Vector.replicate 13 0xAA#8)) ∧
    bodyG.toList.length = 14 ∧ (List.replicate 13 0xAA#8).length = 13 := by decide +kernel

theorem witness_SteadyStateReadDeliversTheSample :
    (at_ .reading).block.sess = .reading ∧ (at_ .reading).block.cnt = 0 ∧ hasMarker (bodyBytes rawG) = false := by
  decide +kernel
theorem witness_CalibrationCapturesTheSecondRead :
    (at_ .idle).block.sess = .idle ∧ hasMarker [0xAA#8, 0x55#8] = false ∧ hasMarker (bodyBytes rawG) = false := by
  decide +kernel
theorem witness_MarkerInsideABodyCostsTwoShort : (at_ .ready).block.sess = .ready ∧
    ([] : List Byte).length + (List.replicate 12 0x01#8).length = 12 ∧ hasMarker [] = false ∧
    hasMarker (List.replicate 12 0x01#8) = false := by decide
theorem witness_CalibrationIsAFunctionOfTheBytes :
    (at_ .calCapture).block.sess = .calCapture ∧ (at_ .calCapture).block.cnt = 0 ∧
    (mach { blk .calCapture 0 with time := 5 }).block.sess = .calCapture ∧
    (mach { blk .calCapture 0 with time := 5 }).block.cnt = 0 ∧
    (∃ a, runWords (byteWords [0x20, 0x4E]) (at_ .calCapture) = .next a) ∧
    ∃ c, runWords (byteWords [0x20, 0x4E]) (mach { blk .calCapture 0 with time := 5 }) = .next c :=
  ⟨rfl, rfl, rfl, rfl, ⟨_, rfl⟩, ⟨_, rfl⟩⟩

/-- CNT = 0 with two different windows, and CNT = 1 with windows that agree on the newest byte only. -/
theorem witness_StaleBytesAreUnobservable :
    SameButStaleBytes (at_ .reading).block { blk .reading 0 with sr := Vector.replicate 16 0x20#8 } ∧
    SameButStaleBytes (blk .reading 1) { blk .reading 1 with sr := Vector.replicate 15 0x20#8 ++ #v[0x00#8] } ∧
    (∃ s', exec (.byte 0x4E) (at_ .reading) = .next s') ∧
    ∃ t', exec (.byte 0x4E) (mach { blk .reading 0 with sr := Vector.replicate 16 0x20#8 }) = .next t' := by
  refine ⟨⟨rfl, ?_⟩, ⟨rfl, ?_⟩, ⟨_, rfl⟩, ⟨_, rfl⟩⟩ <;> unfold SameReadBytes <;> decide +kernel
theorem witness_UnstartedRegistersAreUnobservable :
    SameButUnobserved (at_ .stopped).block { blk .stopped 0 with count := 3, freq := 120 } ∧
    SameButUnobserved (at_ .ready).block (at_ .ready).block ∧
    (∃ s', exec .read (at_ .stopped) = .next s') ∧
    ∃ t', exec .read (mach { blk .stopped 0 with count := 3, freq := 120 }) = .next t' := by
  refine ⟨?_, ?_, ⟨_, rfl⟩, ⟨_, rfl⟩⟩ <;> unfold SameButUnobserved <;> decide +kernel

theorem witness_CrcAcceptsItsOwnAndDetectsEveryBitFlip :
    (List.replicate 14 0x00#8).length = 14 ∧ validate (frameOf bodyG) = true := by decide +kernel
theorem witness_ShortSequencesAreRejected : ([] : List Byte).length < 16 ∧ (List.replicate 15 0x00#8).length < 16 := by
  decide

/-- Below the half, above it, and a tie, with an even and an odd floor and either sign. -/
theorem witness_RoundingDivisionRule :
    ((14 : Int) = 1 * 10 + 4 ∧ (2 * 4 : Int) < 10) ∧ ((-4 : Int) = -1 * 10 + 6 ∧ (10 : Int) < 2 * 6) ∧
    ((25 : Int) = 2 * 10 + 5 ∧ (-15 : Int) = -2 * 10 + 5 ∧ (-5 : Int) = -1 * 10 + 5 ∧ (2 * 5 : Int) = 10) ∧
    (0 : Int) < 10 := by decide
/-- Frame A's fields, signs included. -/
theorem witness_DecodeFormula : ∀ i : Fin 6, (#v[1234, -567, 15, 2505, -1495, 7] : Vector Int 6)[i] =
    let n := (frameOf bodyA)[2 + 2 * i.val].toNat + 256 * (frameOf bodyA)[3 + 2 * i.val].toNat
    if n < 32768 then (n : Int) else (n : Int) - 65536 := by decide +kernel
/-- DEC9's reference, the extremes of the range. -/
theorem witness_DecodeNeverOverflows : ∀ i : Fin 6,
    -32768 ≤ (#v[-32768, 32767, 0, -32768, 32767, 0] : Vector Int 6)[i] ∧
      (#v[-32768, 32767, 0, -32768, 32767, 0] : Vector Int 6)[i] ≤ 32767 := by decide +kernel
theorem witness_RecordComputesTheRoundedRate : (blk .reading 0).time = (blk .reading 0).startT ∧
    ({ blk .reading 0 with time := 8333 } : Block).time ≠ ({ blk .reading 0 with time := 8333 } : Block).startT := by decide
theorem witness_ElapsedCountsTheTicks : (at_ .ready).block.startT = (at_ .ready).block.time := by decide

/-- READ OK, START OK (both ways), RATE_RESTART OK, and an event that answers nothing. -/
theorem witness_EstimatorIsWrittenOnlyByItsEvents :
    (∃ t, exec (.byte 0x4E) (full .reading bodyG 8333) = .next t ∧ Instr.byte 0x4E ≠ .reset ∧ Instr.byte 0x4E ≠ .tick ∧
      Answers t 2 .ok) ∧
    (∃ t, exec (.byte 0x4E) (full .calCapture bodyA 9) = .next t ∧ Answers t 1 .ok) ∧
    (∃ t, exec .rateRestart (at_ .ready) = .next t ∧ Instr.rateRestart ≠ .reset ∧ Answers t 4 .ok) ∧
    (∃ t, exec .nop (at_ .ready) = .next t ∧ ¬Answers t 2 .ok ∧ ¬Answers t 1 .ok ∧ ¬Answers t 4 .ok) := by
  refine ⟨⟨_, rfl, by decide, by decide,
      { op := 2, status := .ok, sample := hundreds, freq := 120 }, by decide +kernel, rfl, rfl⟩,
    ⟨_, rfl, { op := 1, status := .ok, sample := #v[1234, -567, 15, 250, -150, 1], freq := 0 }, by decide +kernel, rfl, rfl⟩,
    ⟨_, rfl, by decide, bare 4 .ok, rfl, rfl, rfl⟩, ⟨_, rfl, ?_, ?_, ?_⟩⟩ <;>
  · rintro ⟨r, h, -⟩
    revert h
    show (none : Option Response) = some r → False
    intro h
    cases h

/-- The step `i` from `s` answers a next state and changes SESS to `x`. -/
def moves (i : Instr) (s : State) (x : Sess) : Bool :=
  match result (exec i s) with
  | some t => t.block.sess == x && t.block.sess != s.block.sess
  | none => false

/-- Each line of R130's table that moves SESS is taken by some step. -/
theorem witness_SessionChangesOnlyAlongTheTable :
    moves .reset (at_ .stopped) .idle ∧ moves (.start false) (at_ .idle) .ready ∧
    moves (.start true) (at_ .idle) .calDiscard ∧ moves .timeout (at_ .calDiscard) .calCapture ∧
    moves (.byte 0x4E) (full .calCapture bodyA 0) .ready ∧ moves (.byte 0x4E) (full .calCapture bodyBad 0) .idle ∧
    moves .read (at_ .ready) .reading ∧ moves (.byte 0x4E) (full .reading bodyG 0) .ready ∧
    moves .timeout (at_ .reading) .ready ∧ moves .stop (at_ .ready) .stopped := by decide +kernel

theorem witness_StoppedIsTerminal : (at_ .stopped).block.sess = .stopped ∧ Instr.start true ≠ .reset ∧
    ∃ t, exec (.start true) (at_ .stopped) = .next t := ⟨rfl, by decide, _, rfl⟩
/-- A read ended by TIMEOUT, by RESET, and by a marker whose bytes are the only two of the read. -/
theorem witness_BusyEndsOnlyAtAMarkerTimeoutOrReset :
    (busy (at_ .reading).block = true ∧ ∃ t, exec .timeout (at_ .reading) = .next t ∧ busy t.block = false) ∧
    (∃ t, exec .reset (at_ .reading) = .next t ∧ busy t.block = false) ∧
    ∃ t, exec (.byte 0x4E) (mach { blk .reading 1 with sr := windowOf bodyG }) = .next t ∧ busy t.block = false :=
  ⟨⟨rfl, _, rfl, rfl⟩, ⟨_, rfl, rfl⟩, ⟨_, rfl, by decide +kernel⟩⟩

/-- A response of every class the block gives: READ OK, START OK, recoverable, and the three fatal ones. -/
theorem witness_ResponsesCarryWhatTheTableSays :
    (∃ t, step { full .reading bodyG 8333 with input := [.rx 0x04E#9] } = .next t ∧
      t.rsp = some { op := 2, status := .ok, sample := hundreds, freq := 120 }) ∧
    (∃ t, step { full .calCapture bodyA 9 with input := [.rx 0x04E#9] } = .next t ∧
      t.rsp = some { op := 1, status := .ok, sample := #v[1234, -567, 15, 250, -150, 1], freq := 0 }) ∧
    (∃ t, step { at_ .reading with input := [.rx 0x100#9] } = .next t ∧ t.rsp = some (bare 2 .recTimeout)) ∧
    (∃ t, step { at_ .idle with input := [.cmd 0x02#8] } = .next t ∧ t.rsp = some (bare 2 .fatalNotActive)) ∧
    (∃ t, step { at_ .ready with input := [.cmd 0x01#8] } = .next t ∧ t.rsp = some (bare 1 .fatalBadState)) ∧
    ∃ t, step { at_ .idle with input := [.cmd 0xFF#8] } = .next t ∧ t.rsp = some (bare 7 .fatalBadCmd) :=
  ⟨⟨_, rfl, by decide +kernel⟩, ⟨_, rfl, by decide +kernel⟩, ⟨_, rfl, rfl⟩, ⟨_, rfl, rfl⟩, ⟨_, rfl, rfl⟩, ⟨_, rfl, rfl⟩⟩

theorem witness_ErrorsLeaveTheRestOfTheState :
    (∃ t, exec .timeout (at_ .calCapture) = .next t ∧ t.rsp = some (bare 1 .recTimeout) ∧
      statusClass (bare 1 .recTimeout).status = .recoverable) ∧
    ∃ t, exec .read (at_ .idle) = .next t ∧ t.rsp = some (bare 2 .fatalNotActive) ∧
      statusClass (bare 2 .fatalNotActive).status = .fatal :=
  ⟨⟨_, rfl, rfl, rfl⟩, ⟨_, rfl, rfl, rfl⟩⟩

/-- The three writers of ZREF, each changing it. -/
theorem witness_ZeroReferenceHasThreeWriters :
    (∃ t, exec .reset (mach { blk .ready 0 with zref := #v[1, 0, 0, 0, 0, 0] }) = .next t ∧
      t.block.zref ≠ #v[1, 0, 0, 0, 0, 0]) ∧
    (∃ t, exec (.start false) (mach { blk .idle 0 with zref := #v[1, 0, 0, 0, 0, 0] }) = .next t ∧
      t.block.zref ≠ #v[1, 0, 0, 0, 0, 0]) ∧
    ∃ t, exec (.byte 0x4E) (full .calCapture bodyA 9) = .next t ∧ t.block.zref ≠ (full .calCapture bodyA 9).block.zref :=
  ⟨⟨_, rfl, by decide +kernel⟩, ⟨_, rfl, by decide +kernel⟩, ⟨_, rfl, by decide +kernel⟩⟩

/-- A BUSY state with CNT = 16 and a not BUSY one. -/
theorem witness_StepKeepsTheReadCountSound :
    (ReadCountSound (mach (blk .reading 16)).block ∧
      ∃ t, step { mach (blk .reading 16) with input := [.rx 0x07F#9] } = .next t) ∧
    ReadCountSound (at_ .ready).block ∧ ∃ t, step { at_ .ready with input := [.cmd 0x02#8] } = .next t :=
  ⟨⟨by decide, _, rfl⟩, by decide, _, rfl⟩
theorem witness_StepKeepsTheReferenceDecoded :
    ReferenceFromFrame { blk .ready 0 with zref := toZeroRef (decodeFrame (frameOf bodyA) zeroValues) } ∧
    ∃ t, step (mach { blk .ready 0 with zref := toZeroRef (decodeFrame (frameOf bodyA) zeroValues) }) = .next t :=
  ⟨.inr ⟨_, rfl⟩, _, rfl⟩
theorem witness_StepKeepsUntouchedBeforeStarted : UntouchedBeforeStarted (at_ .calCapture).block ∧
    ∃ t, step { at_ .calCapture with input := [.rx 0x100#9] } = .next t := ⟨by decide, _, rfl⟩
theorem witness_StepKeepsFreqZeroWithoutSamples :
    (at_ .ready).block.count ≠ 0xFFFFFFFF#32 ∧ FreqZeroWithoutSamples (at_ .ready).block ∧
    ∃ t, step { at_ .ready with input := [.cmd 0x04#8] } = .next t := ⟨by decide, by decide, _, rfl⟩

/-- One setting of the wires for each clause of the cycle's order. -/
theorem witness_CyclePerformsItsEventsInOrder :
    ({ rst := true, tick := true, cmd := none, rx := none, rxTimeout := false } : PinsIn).rst = true ∧
    (busy (at_ .ready).block = false ∧
      ({ rst := false, tick := true, cmd := some 0x02, rx := some 0x20, rxTimeout := true } : PinsIn).cmd = some 0x02 ∧
      ({ rst := false, tick := true, cmd := none, rx := none, rxTimeout := false } : PinsIn).cmd = none) ∧
    (busy (at_ .reading).block = true ∧
      ({ rst := false, tick := false, cmd := none, rx := some 0x20, rxTimeout := true } : PinsIn).rxTimeout = true ∧
      ({ rst := false, tick := true, cmd := some 0x02, rx := some 0x20, rxTimeout := false } : PinsIn).rx = some 0x20 ∧
      ({ rst := false, tick := true, cmd := some 0x02, rx := none, rxTimeout := false } : PinsIn).rx = none) := by decide

end Sys2Proof.Tests
end

/-! SUPPORT. Proofs of the family 10_state.md: the reset state, what the effect of an event depends on, and the invariants
every step keeps (R23 to R25). -/

namespace Sys2Proof.Machine

/-! ### What one step can do to the block -/

/-- The block after a step, by the write lists of the rules: one constructor per way the step can go, with the session
state it needs. Responses are left out, and so are the states of the ports. -/
inductive BlockChange (b : Block) : Block → Prop
  /-- nothing: an event not accepted, NOP, an error that writes no state, or no event at all -/
  | same : BlockChange b b
  /-- START with calibration (45_session_commands.md R123) -/
  | calibrationBegins : b.sess = .idle → BlockChange b { b with cnt := 0, sess := .calDiscard }
  /-- START without calibration (R123) -/
  | startsUncalibrated : b.sess = .idle →
      BlockChange b { estStart { b with zref := zeroRef } with cnt := 0, sess := .ready }
  /-- READ (R124) -/
  | readBegins : b.sess = .ready → BlockChange b { b with cnt := 0, sess := .reading }
  /-- STOP (R126) -/
  | stops : b.sess = .ready → BlockChange b { b with sess := .stopped }
  /-- RATE_RESTART (R127) -/
  | rateRestarts : b.sess = .ready → BlockChange b (estStart b)
  /-- a byte that completes no read (40_frame_assembler.md R66) -/
  | pushes (d : Byte) : busy b = true → BlockChange b { b with sr := srPush b.sr d, cnt := cntNext b.cnt }
  /-- the first calibration read ends (43_calibration.md R102); `sr` is the window with the completing byte, if any -/
  | discards (sr : Window) : b.sess = .calDiscard → BlockChange b (completeDiscard { b with sr := sr }).block
  /-- the second calibration read succeeds (R103) -/
  | captures (sr : Window) (F : Frame) : b.sess = .calCapture → validate F = true →
      BlockChange b (captureReference { b with sr := sr } F).block
  /-- the second calibration read fails (R104) -/
  | aborts (sr : Window) (st : Status) : b.sess = .calCapture →
      BlockChange b (abortCalibration { b with sr := sr } st).block
  /-- a steady-state read succeeds (45_session_commands.md R125) -/
  | delivers (sr : Window) (F : Frame) : b.sess = .reading → validate F = true →
      BlockChange b (deliverSample { b with sr := sr } F).block
  /-- a steady-state read fails (R125) -/
  | fails (sr : Window) (st : Status) : b.sess = .reading → BlockChange b (failRead { b with sr := sr } st).block
  /-- TICK (44_rate_estimator.md R110) -/
  | ticks : BlockChange b { b with time := b.time + 1 }
  /-- RESET (70_reset_and_hazards.md R156) -/
  | resets : BlockChange b Block.reset

theorem complete_blockChange {b : Block} (sr : Window) (o : ReadOutcome) (hb : busy b = true) :
    BlockChange b (complete { b with sr := sr } o).block := by
  rcases complete_cases (b := { b with sr := sr }) o hb with
    ⟨hs, h⟩ | ⟨hs, F, -, hv, h⟩ | ⟨hs, st, -, h⟩ | ⟨hs, F, -, hv, h⟩ | ⟨hs, st, -, h⟩ <;> rw [h]
  · exact .discards sr hs
  · exact .captures sr F hs hv
  · exact .aborts sr st hs
  · exact .delivers sr F hs hv
  · exact .fails sr st hs

theorem startSession_blockChange (b : Block) (cal : Bool) : BlockChange b (startSession b cal).block := by
  unfold startSession
  cases hs : b.sess with
  | idle =>
    cases cal with
    | true => exact .calibrationBegins hs
    | false => exact .startsUncalibrated hs
  | _ => exact .same

theorem beginRead_blockChange (b : Block) : BlockChange b (beginRead b).block := by
  unfold beginRead
  split_ifs with hs
  · exact .readBegins hs
  · exact .same

theorem stopSession_blockChange (b : Block) : BlockChange b (stopSession b).block := by
  rw [stopSession, respond_block]
  split_ifs with hs
  · exact .stops hs
  · exact .same

theorem restartRate_blockChange (b : Block) : BlockChange b (restartRate b).block := by
  unfold restartRate
  split_ifs with hs
  · exact .rateRestarts hs
  · exact .same

theorem EventCase.blockChange {s : State} {i : Instr} {r : Reaction} (h : EventCase s i r) :
    BlockChange s.block r.block := by
  cases h with
  | commandWaits _ _ _ _ _ _ _ hr => subst hr; exact .same
  | receiveWaits _ _ _ _ hr => subst hr; exact .same
  | nothing _ hr => subst hr; exact .same
  | starts cal _ _ hr => subst hr; exact startSession_blockChange _ cal
  | reads _ _ hr => subst hr; exact beginRead_blockChange _
  | stops _ _ hr => subst hr; exact stopSession_blockChange _
  | restarts _ _ hr => subst hr; exact restartRate_blockChange _
  | pushes d _ hb _ hr => subst hr; exact .pushes d hb
  | completes d _ hb _ hr => subst hr; exact complete_blockChange _ _ hb
  | timesOut _ hb hr => subst hr; exact complete_blockChange s.block.sr _ hb
  | ticks _ hr => subst hr; exact .ticks
  | resets _ hr => subst hr; exact .resets

theorem step_blockChange {s t : State} (h : step s = .next t) : BlockChange s.block t.block := by
  rcases step_cases h with ⟨-, rfl⟩ | ⟨_, rest, i, -, -, hx⟩ | ⟨_, _, _, -, -, rfl⟩
  · exact .same
  · obtain ⟨r, rfl, hc⟩ := exec_cases hx
    exact hc.blockChange
  · exact .same

/-! ### What an event reads, and the reset pin -/

/-- Every event's effect is a function from the block to a reaction. -/
theorem exec_eq_react_of_block (i : Instr) :
    ∃ f : Block → Reaction, ∀ s : State, exec i s = .next (s.react (f s.block)) := by
  cases i with
  | nop => exact ⟨fun b => acceptCommand b (unchanged b), exec_nop⟩
  | start cal => exact ⟨fun b => acceptCommand b (startSession b cal), exec_start cal⟩
  | read => exact ⟨fun b => acceptCommand b (beginRead b), exec_read⟩
  | stop => exact ⟨fun b => acceptCommand b (stopSession b), exec_stop⟩
  | rateRestart => exact ⟨fun b => acceptCommand b (restartRate b), exec_rateRestart⟩
  | byte d => exact ⟨fun b => acceptReceive b (takeByte b d), exec_byte d⟩
  | timeout => exact ⟨fun b => acceptReceive b (complete b .timeout), exec_timeout⟩
  | tick => exact ⟨fun b => { block := { b with time := b.time + 1 }, rsp := none }, exec_tick⟩
  | reset => exact ⟨fun _ => { block := Block.reset, rsp := none }, exec_reset⟩

/-- A cycle with `rst = 1` is the one event RESET, whatever the other wires say (30_encoding.md R61). -/
theorem cycle_of_rst {p : PinsIn} (hp : p.rst = true) (s : State) :
    cycle p s = .next { state := { s with block := Block.reset, rsp := none }, responses := [] } := by
  have hevents : cycleEvents p s.block = [.rst] := if_pos hp
  have hreset : perform .rst s = .next (s.react { block := Block.reset, rsp := none }) :=
    (perform_of_instr Laws.RoundTrip.reset s).trans (exec_reset s)
  rw [cycle, hevents, runWords_cons hreset]
  rfl

end Sys2Proof.Machine

namespace Sys2Proof.Safety

open Sys2Proof.Machine

/-! ### The read count (R24 (a), (c)) -/

theorem readCountSound_of_cnt_eq_zero {b : Block} (h : b.cnt = 0) : ReadCountSound b :=
  ⟨by simp [CntAtMost16, h], fun _ => h⟩

theorem ReadCountSound.blockChange {b c : Block} (hb : ReadCountSound b) (h : BlockChange b c) :
    ReadCountSound c := by
  obtain ⟨hle, hzero⟩ := hb
  cases h with
  | same => exact ⟨hle, hzero⟩
  | ticks => exact ⟨hle, hzero⟩
  | rateRestarts => exact ⟨hle, hzero⟩
  | stops hs => exact readCountSound_of_cnt_eq_zero (hzero ((not_busy_iff b).mpr (.inr (.inl hs))))
  | pushes d hbusy =>
    refine ⟨?_, fun hidle => ?_⟩
    · simp [CntAtMost16]
    · exact absurd (hbusy.symm.trans hidle) (by decide)
  | _ => exact readCountSound_of_cnt_eq_zero rfl

/-! ### The zero reference (R24 (e)) -/

theorem ReferenceFromFrame.blockChange {b c : Block} (hb : ReferenceFromFrame b) (h : BlockChange b c) :
    ReferenceFromFrame c := by
  cases h with
  | startsUncalibrated => exact .inl rfl
  | captures sr F => exact .inr ⟨F, rfl⟩
  | resets => exact .inl rfl
  | _ => exact hb

theorem rawField_bounds (F : Frame) (i : Nat) (h : i < 6) : -32768 ≤ rawField F i h ∧ rawField F i h ≤ 32767 := by
  have hlo := BitVec.le_toInt (memRead2 F (2 + 2 * i) (by omega))
  have hhi := BitVec.toInt_lt (x := memRead2 F (2 + 2 * i) (by omega))
  unfold rawField
  omega

/-- A torque element of the difference against an all-zero reference is the raw count (R89, R91). -/
theorem difference_zeroValues_torque (F : Frame) {i : Fin 6} (hi : 3 ≤ i.val) :
    difference F zeroValues i = rawField F i i.isLt := by
  simp [difference, scaleK, zeroValues, Config.torqueDiv, Nat.not_lt.mpr hi]

/-- A torque decoded with an all-zero reference is a rounded tenth of a 16-bit count (R93). -/
theorem decodeFrame_zeroValues_torque_bounds (F : Frame) {i : Fin 6} (hi : 3 ≤ i.val) :
    -3277 ≤ (decodeFrame F zeroValues)[i] ∧ (decodeFrame F zeroValues)[i] ≤ 3277 := by
  have hraw := rawField_bounds F i i.isLt
  have hround := rdivBy_nearest Config.roundTies (rawField F i i.isLt) (d := 10) (by decide)
  have helem : (decodeFrame F zeroValues)[i] = rdivBy Config.roundTies (rawField F i i.isLt) 10 := by
    simp [decodeFrame, decodeBy, difference_zeroValues_torque F hi]
  rw [helem]
  omega

/-- A ZREF element holds the number stored into it when 16 bits hold that number (43_calibration.md R103). -/
theorem toInt_toZeroRef {v : Vector Int 6} {i : Fin 6} (hlo : -32768 ≤ v[i]) (hhi : v[i] < 32768) :
    (toZeroRef v)[i].toInt = v[i] := by
  have helem : (toZeroRef v)[i] = BitVec.ofInt 16 v[i] := by simp [toZeroRef]
  rw [helem]
  exact BitVec.toInt_ofInt_eq_self (by decide) hlo hhi

theorem ReferenceFromFrame.torqueInRange {b : Block} (hb : ReferenceFromFrame b) : TorqueReferenceInRange b := by
  intro i hi
  rcases hb with hz | ⟨F, hz⟩ <;> rw [hz]
  · simp [zeroRef]
  · obtain ⟨hlo, hhi⟩ := decodeFrame_zeroValues_torque_bounds F hi
    rw [toInt_toZeroRef (by omega) (by omega)]
    exact ⟨hlo, hhi⟩

/-! ### The registers of a session that has not started (R24 (d)) -/

theorem UntouchedBeforeStarted.blockChange {b c : Block} (hb : UntouchedBeforeStarted b) (h : BlockChange b c) :
    UntouchedBeforeStarted c := by
  cases h with
  | same => exact hb
  | ticks => exact hb
  | pushes => exact hb
  | resets => exact fun _ => ⟨rfl, rfl, rfl, rfl⟩
  | calibrationBegins hs => exact fun _ => hb (by rw [hs]; rfl)
  | discards sr hs => exact fun _ => hb (by rw [hs]; rfl)
  | aborts sr st hs => exact fun _ => hb (by rw [hs]; rfl)
  | rateRestarts hs =>
    intro hidle
    rw [estStart_sess, hs] at hidle
    cases hidle
  | _ => exact fun hidle => nomatch hidle

/-! ### The frequency (R24 (f)) -/

theorem FreqZeroWithoutSamples.blockChange {b c : Block} (hb : FreqZeroWithoutSamples b)
    (hwrap : b.count ≠ 0xFFFFFFFF#32) (h : BlockChange b c) : FreqZeroWithoutSamples c := by
  cases h with
  | startsUncalibrated => exact fun _ => rfl
  | rateRestarts => exact fun _ => rfl
  | captures => exact fun _ => rfl
  | resets => exact fun _ => rfl
  | delivers sr F =>
    intro hcount
    rw [deliverSample_count] at hcount
    exact absurd hcount (by bv_omega)
  | _ => exact hb

end Sys2Proof.Safety

namespace Sys2Proof.Proofs.StateFamily

open Sys2Proof.Machine Sys2Proof.Safety

/-- Settles O49: every way a step can change the block keeps the read count sound. -/
theorem stepKeepsTheReadCountSound : Obligations.StepKeepsTheReadCountSound :=
  fun _ _ hs h => hs.blockChange (step_blockChange h)

/-- Settles O50: only START, a capture and RESET write ZREF; the range is that of a rounded tenth of a 16-bit count. -/
theorem stepKeepsTheReferenceDecoded : Obligations.StepKeepsTheReferenceDecoded :=
  ⟨fun _ _ hs h => hs.blockChange (step_blockChange h), fun _ hb => hb.torqueInRange⟩

/-- Settles O51: the steps that write those registers end in READY, or are RESET. -/
theorem stepKeepsUntouchedBeforeStarted : Obligations.StepKeepsUntouchedBeforeStarted :=
  fun _ _ hs h => hs.blockChange (step_blockChange h)

/-- Settles O7: the reaction is the value of one function at the common block. -/
theorem effectReadsOnlyTheBlock : Obligations.EffectReadsOnlyTheBlock := by
  intro i s t hst
  obtain ⟨f, hf⟩ := exec_eq_react_of_block i
  exact ⟨f s.block, hf s, hst ▸ hf t⟩

/-- Settles O52: a step that samples makes COUNT nonzero unless it wraps; every other step that writes either register
clears FREQ. -/
theorem stepKeepsFreqZeroWithoutSamples : Obligations.StepKeepsFreqZeroWithoutSamples :=
  fun _ _ hwrap hs h => hs.blockChange hwrap (step_blockChange h)

/-- Settles O11: by the reset values of R25 and the priority of the reset pin. -/
theorem resetClearsEverything : Obligations.ResetClearsEverything := by
  have hsr (i : Fin 16) : State.reset.block.sr[i] = 0x00#8 := by simp
  have hzref (i : Fin 6) : State.reset.block.zref[i] = 0 := by simp
  exact ⟨Laws.RoundTrip.reset, fun s => ⟨_, exec_reset s, rfl, rfl, rfl⟩, rfl, rfl, hsr, hzref, rfl, rfl, rfl, rfl,
    rfl, fun p s hp => ⟨_, cycle_of_rst hp s, rfl, rfl⟩⟩

/-- Settles O53: each invariant by its case for the reset values. -/
theorem resetMeetsTheInvariants : Obligations.ResetMeetsTheInvariants :=
  ⟨readCountSound_of_cnt_eq_zero rfl, .inl rfl, fun _ => ⟨rfl, rfl, rfl, rfl⟩, fun _ => rfl⟩

end Sys2Proof.Proofs.StateFamily

/-! SUPPORT. Proofs of the family 20_memory.md: the step as the fold over the event sequence (R41), and the byte source
beside the block (R35 to R37). -/

namespace Sys2Proof.Machine

/-! ### What performing one input word does (R41, R52) -/

/-- A reserved command word runs no instruction: the block answers it as R121 says, or does not accept it. -/
theorem perform_of_reserved {x : InputWord} {w : CommandWord} (hx : Sys2Proof.decode x = .rejected (.reservedCommand w))
    (s : State) :
    perform x s = .next (s.react (acceptCommand s.block (raise s.block .fatalBadCmd (commandOp w)))) := by
  simp [perform, hx, execReserved]

theorem acceptCommand_raise (b : Block) (st : Status) (op : BitVec 3) :
    acceptCommand b (raise b st op) =
      { block := b
        rsp := if busy b then none else some { op := op, status := st, sample := zeroSample, freq := 0 } } := by
  cases hb : busy b
  · exact acceptCommand_of_not_busy hb _
  · exact acceptCommand_of_busy hb _

/-- Performing an input word answers a next state, whose block and response are a function of the block alone. -/
theorem perform_eq_react_of_block (x : InputWord) :
    ∃ f : Block → Reaction, ∀ s : State, perform x s = .next (s.react (f s.block)) := by
  cases hx : Sys2Proof.decode x with
  | instr i =>
    obtain ⟨f, hf⟩ := exec_eq_react_of_block i
    exact ⟨f, fun s => (perform_of_instr hx s).trans (hf s)⟩
  | rejected e =>
    obtain ⟨w⟩ := e
    exact ⟨fun b => acceptCommand b (raise b .fatalBadCmd (commandOp w)), perform_of_reserved hx⟩

/-! ### The step, by what the input offers -/

theorem step_of_input_nil {s : State} (hs : s.input = []) : step s = .next { s with rsp := none } := by
  simp [step, hs, idleStep, react_unchanged]

theorem step_of_input_cons {s : State} {x : InputWord} {rest : List InputWord} (hs : s.input = x :: rest) :
    step s = perform x { s with input := rest } := by
  simp [step, hs]

/-! ### Traces and runs (R41) -/

/-- The first step of a run that answers a next state leaves the run from there. -/
theorem run_succ_of_step {k : Nat} {s t : State} (h : step s = .next t) :
    Host.Core.run Sys2Proof.core (k + 1) s = Host.Core.run Sys2Proof.core k t := by
  have hcore : Sys2Proof.core.step s = .next t := h
  simp only [Host.Core.run, hcore]

/-- A trace ends in a state whatever the events are, and the machine reaches that state in as many steps as there are
events, leaving alone the events that follow them. -/
theorem runWords_eq_run (ws rest : List InputWord) (s : State) :
    ∃ e, runWords ws s = .next e ∧
      Host.Core.run Sys2Proof.core ws.length { s with input := ws ++ rest } =
        .next { e.state with input := rest } := by
  induction ws generalizing s with
  | nil => exact ⟨_, runWords_nil s, rfl⟩
  | cons x ws ih =>
    obtain ⟨f, hf⟩ := perform_eq_react_of_block x
    obtain ⟨e, hwords, hrun⟩ := ih (s.react (f s.block))
    have hstep : step { s with input := x :: (ws ++ rest) } =
        .next { s.react (f s.block) with input := ws ++ rest } :=
      (step_of_input_cons rfl).trans (hf _)
    refine ⟨_, by rw [runWords_cons (hf s), hwords], ?_⟩
    exact (run_succ_of_step hstep).trans hrun

theorem cycle_answers_next (p : PinsIn) (s : State) : ∃ e, cycle p s = .next e := by
  obtain ⟨e, he, -⟩ := runWords_eq_run (cycleEvents p s.block) [] s
  exact ⟨e, he⟩

/-! ### The BYTE event of a cycle (30_encoding.md R60, R61) -/

theorem decode_receiveWord_byte (d : Byte) : decode (.rx (receiveWord false d)) = .instr (.byte d) :=
  Laws.RoundTrip.byte d

theorem decode_receiveWord_timeout : decode (.rx (receiveWord true 0#8)) = .instr .timeout :=
  Laws.RoundTrip.timeout

/-- The receive words of BYTE tell their bytes apart: each decodes to its own. -/
theorem receiveWord_byte_inj {b d : Byte} : receiveWord false b = receiveWord false d ↔ b = d := by
  refine ⟨fun h => ?_, congrArg _⟩
  have hdecode := congrArg (fun w => decode (.rx w)) h
  simpa [decode_receiveWord_byte] using hdecode

theorem receiveWord_byte_ne_timeout (d : Byte) : receiveWord false d ≠ receiveWord true 0#8 := by
  intro h
  have hdecode := congrArg (fun w => decode (.rx w)) h
  simp [decode_receiveWord_byte, decode_receiveWord_timeout] at hdecode

theorem rx_not_mem_commandEvents (p : PinsIn) (b : Block) (w : ReceiveWord) : .rx w ∉ commandEvents p b := by
  unfold commandEvents
  split_ifs
  · cases p.cmd <;> simp
  · simp

theorem byte_mem_receiveEvents_iff (p : PinsIn) (b : Block) (d : Byte) :
    .rx (receiveWord false d) ∈ receiveEvents p b ↔ busy b = true ∧ p.rxTimeout = false ∧ p.rx = some d := by
  unfold receiveEvents rxReady
  cases hbusy : busy b with
  | false => simp
  | true =>
    cases htimeout : p.rxTimeout with
    | true => simp [receiveWord_byte_ne_timeout]
    | false => cases hrx : p.rx <;> simp [receiveWord_byte_inj, eq_comm]

theorem byte_mem_cycleEvents_iff (p : PinsIn) (b : Block) (d : Byte) :
    .rx (receiveWord false d) ∈ cycleEvents p b ↔
      p.rst = false ∧ busy b = true ∧ p.rxTimeout = false ∧ p.rx = some d := by
  unfold cycleEvents
  cases hrst : p.rst with
  | true => simp
  | false =>
    have htick : InputWord.rx (receiveWord false d) ∉ (if p.tick then [InputWord.tick] else []) := by
      split_ifs <;> simp
    simp [rx_not_mem_commandEvents, byte_mem_receiveEvents_iff, htick]

theorem byteTaken_iff (p : PinsIn) (b : Block) :
    byteTaken p b = true ↔ p.rst = false ∧ busy b = true ∧ p.rxTimeout = false ∧ ∃ d, p.rx = some d := by
  simp [byteTaken, rxReady, Option.isSome_iff_exists, and_assoc]

/-- A cycle accepts the byte offered exactly when its events hold a BYTE. -/
theorem byteTaken_iff_exists_byte_mem (p : PinsIn) (b : Block) :
    byteTaken p b = true ↔ ∃ d, .rx (receiveWord false d) ∈ cycleEvents p b := by
  simp [byteTaken_iff, byte_mem_cycleEvents_iff]

/-- The byte of a BYTE event is the oldest one held. -/
theorem held_eq_cons_of_byte_mem {d : Drive} {n : Bench} {b : Byte}
    (h : .rx (receiveWord false b) ∈ cycleEvents (benchPins d n) n.state.block) : ∃ rest, n.held = b :: rest := by
  obtain ⟨-, -, -, hoffer⟩ := (byte_mem_cycleEvents_iff _ _ _).mp h
  exact List.head?_eq_some_iff.mp hoffer

theorem benchCycle_of_cycle {d : Drive} {n : Bench} {t : TraceEnd} (h : cycle (benchPins d n) n.state = .next t) :
    benchCycle d n = .next {
      bench := {
        state := t.state
        held := (if byteTaken (benchPins d n) n.state.block then n.held.tail else n.held) ++ d.arrivals }
      responses := t.responses } := by
  simp [benchCycle, h]

end Sys2Proof.Machine

namespace Sys2Proof.Proofs.MemoryFamily

open Sys2Proof.Machine

/-- Settles O6: no input word makes `perform` stop, and a reaction leaves the input as it is. -/
theorem stepAlwaysAnswersNext : Obligations.StepAlwaysAnswersNext := by
  intro s
  cases hs : s.input with
  | nil => exact ⟨_, step_of_input_nil hs, hs⟩
  | cons x rest =>
    obtain ⟨f, hf⟩ := perform_eq_react_of_block x
    exact ⟨_, (step_of_input_cons hs).trans (hf _), rfl⟩

/-- Settles O8, by induction on the event sequence. -/
theorem traceIsTheRunOfTheMachine : Obligations.TraceIsTheRunOfTheMachine :=
  runWords_eq_run

/-- Settles O56: the held bytes lose their head exactly when the events of the cycle hold a BYTE. -/
theorem byteSourceLosesOnlyTheAcceptedByte : Obligations.ByteSourceLosesOnlyTheAcceptedByte := by
  intro d n
  obtain ⟨t, ht⟩ := cycle_answers_next (benchPins d n) n.state
  refine ⟨_, benchCycle_of_cycle ht, ?_⟩
  cases htaken : byteTaken (benchPins d n) n.state.block with
  | true =>
    obtain ⟨b, hmem⟩ := (byteTaken_iff_exists_byte_mem _ _).mp htaken
    obtain ⟨rest, hheld⟩ := held_eq_cons_of_byte_mem hmem
    obtain ⟨-, hbusy, -, -⟩ := (byte_mem_cycleEvents_iff _ _ _).mp hmem
    exact .inl ⟨b, rest, hheld, by simp [hheld], hbusy, hmem⟩
  | false =>
    refine .inr ⟨rfl, fun b hmem => ?_⟩
    have hyes := (byteTaken_iff_exists_byte_mem _ _).mpr ⟨b, hmem⟩
    exact absurd (htaken.symm.trans hyes) (by decide)

/-- Settles O4: one equation of the step for each thing the input can offer. -/
theorem stepRunsTheDecodedEvent : Obligations.StepRunsTheDecodedEvent := by
  refine fun s => ⟨fun x rest i hs hx => step_of_instr hs hx, fun x rest w hs hx => ?_, step_of_input_nil⟩
  rw [step_of_input_cons hs, perform_of_reserved hx, acceptCommand_raise]
  rfl

end Sys2Proof.Proofs.MemoryFamily

/-! SUPPORT. Proofs of the family 30_encoding.md: command words and receive words (R46 to R52), the frame on the wire
(R53, R54), the packed response (R56) and the events of a clock cycle (R61). -/

namespace Sys2Proof.Machine

/-! ### Command words (R46 to R48) -/

theorem ofBool_getLsbD {n : Nat} (w : BitVec n) (i : Nat) : BitVec.ofBool (w.getLsbD i) = w.extractLsb' i 1 := by
  rw [BitVec.getLsbD_eq_extractLsb']
  generalize w.extractLsb' i 1 = b
  revert b
  decide

theorem commandWellFormed_iff (w : CommandWord) :
    commandWellFormed w = true ↔
      w.extractLsb' 4 4 = 0#4 ∧ (w.extractLsb' 0 3).toNat ≤ 4 ∧
        (w.getLsbD 3 = false ∨ w.extractLsb' 0 3 = 1#3) := by
  simp [commandWellFormed, commandZeroField, commandOpAssigned, commandCalAllowed, and_assoc]

/-- A command word whose upper four bits are zero is put together from its `cal` and `op` fields. -/
theorem commandWord_of_zeroField {w : CommandWord} (h : w.extractLsb' 4 4 = 0#4) :
    commandWord (w.getLsbD 3) (w.extractLsb' 0 3) = w := by
  have hlow : w.extractLsb' 3 1 ++ w.extractLsb' 0 3 = w.extractLsb' 0 4 :=
    BitVec.extractLsb'_append_extractLsb'_eq_extractLsb' rfl
  rw [commandWord, ofBool_getLsbD, hlow, ← h]
  exact BitVec.extractLsb'_append_extractLsb' (w := 4) (len := 4)

/-- R47's table: the assigned opcodes, one word each, and START's second word. -/
theorem commandWellFormed_iff_mem (w : CommandWord) :
    commandWellFormed w = true ↔ w ∈ [0x00#8, 0x01#8, 0x09#8, 0x02#8, 0x03#8, 0x04#8] := by
  constructor
  · intro h
    obtain ⟨hzero, hop, hcal⟩ := (commandWellFormed_iff w).mp h
    rw [← commandWord_of_zeroField hzero]
    generalize w.getLsbD 3 = cal at hcal
    generalize w.extractLsb' 0 3 = op at hop hcal
    have hops : op = 0#3 ∨ op = 1#3 ∨ op = 2#3 ∨ op = 3#3 ∨ op = 4#3 := by bv_omega
    rcases hcal with rfl | rfl
    · rcases hops with rfl | rfl | rfl | rfl | rfl <;> decide
    · cases cal <;> decide
  · simp only [List.mem_cons, List.not_mem_nil, or_false]
    rintro (rfl | rfl | rfl | rfl | rfl | rfl) <;> rfl

/-- R121: a well-formed word is dispatched on its opcode. -/
theorem decode_cmd_of_wellFormed {w : CommandWord} (h : commandWellFormed w = true) :
    decode (.cmd w) = .instr (match (w.extractLsb' 0 3).toNat with
      | 0 => .nop
      | 1 => .start (w.getLsbD 3)
      | 2 => .read
      | 3 => .stop
      | _ => .rateRestart) := by
  have hmem := (commandWellFormed_iff_mem w).mp h
  simp only [List.mem_cons, List.not_mem_nil, or_false] at hmem
  rcases hmem with rfl | rfl | rfl | rfl | rfl | rfl <;> rfl

/-- R48: a word that fails one of the three conditions is reserved. -/
theorem decode_cmd_of_not_wellFormed {w : CommandWord} (h : commandWellFormed w = false) :
    decode (.cmd w) = .rejected (.reservedCommand w) := by
  have hfails := mt (commandWellFormed_iff w).mpr (by simp [h])
  have hfields : w.extractLsb' 4 4 ≠ 0#4 ∨ 4 < (commandOp w).toNat ∨
      (w.getLsbD 3 = true ∧ (commandOp w).toNat ≠ 1) := by
    by_contra hno
    push Not at hno
    obtain ⟨hzero, hop, hcal⟩ := hno
    refine hfails ⟨hzero, hop, ?_⟩
    cases hbit : w.getLsbD 3 with
    | false => exact .inl rfl
    | true => exact .inr (BitVec.eq_of_toNat_eq (hcal hbit))
  exact if_pos hfields

/-- A command word that decodes to an instruction is the encoding of that instruction. -/
theorem cmd_eq_encode_of_decode {w : CommandWord} {i : Instr} (h : decode (.cmd w) = .instr i) :
    .cmd w = encode i := by
  cases hwf : commandWellFormed w with
  | false => rw [decode_cmd_of_not_wellFormed hwf] at h; cases h
  | true =>
    have hmem := (commandWellFormed_iff_mem w).mp hwf
    simp only [List.mem_cons, List.not_mem_nil, or_false] at hmem
    rcases hmem with rfl | rfl | rfl | rfl | rfl | rfl <;> cases h <;> rfl

/-! ### Receive words (R50) -/

theorem exists_eq_receiveWord (w : ReceiveWord) : ∃ t d, w = receiveWord t d := by
  refine ⟨w.getLsbD 8, w.extractLsb' 0 8, ?_⟩
  rw [receiveWord, ofBool_getLsbD]
  exact (BitVec.extractLsb'_append_extractLsb' (w := 1) (len := 8)).symm

/-- The data bits of a TIMEOUT are ignored. -/
theorem decode_receiveWord_true (d : Byte) : decode (.rx (receiveWord true d)) = .instr .timeout := by
  have hbit : (receiveWord true d).getLsbD 8 = true := by
    rw [receiveWord, BitVec.getLsbD_append]
    rfl
  simp [decode, decodeReceive, hbit]

/-! ### Decoding and encoding -/

theorem decode_encode (i : Instr) : decode (encode i) = .instr i := by
  cases i with
  | nop => exact Laws.RoundTrip.nop
  | start cal => exact Laws.RoundTrip.start cal
  | read => exact Laws.RoundTrip.read
  | stop => exact Laws.RoundTrip.stop
  | rateRestart => exact Laws.RoundTrip.rateRestart
  | byte b => exact Laws.RoundTrip.byte b
  | timeout => exact Laws.RoundTrip.timeout
  | tick => exact Laws.RoundTrip.tick
  | reset => exact Laws.RoundTrip.reset

/-- An input word stands for no instruction but the one whose encoding it is, a TIMEOUT with data bits apart. -/
theorem eq_encode_or_timeout_of_decode {x : InputWord} {i : Instr} (h : decode x = .instr i) :
    x = encode i ∨ (i = .timeout ∧ ∃ d : Byte, x = .rx (receiveWord true d)) := by
  cases x with
  | cmd w => exact .inl (cmd_eq_encode_of_decode h)
  | rx w =>
    obtain ⟨t, d, rfl⟩ := exists_eq_receiveWord w
    cases t with
    | false => rw [decode_receiveWord_byte] at h; cases h; exact .inl rfl
    | true => rw [decode_receiveWord_true] at h; cases h; exact .inr ⟨rfl, d, rfl⟩
  | tick => cases h; exact .inl rfl
  | rst => cases h; exact .inl rfl

/-- R121: an accepted reserved word is answered with FATAL_BAD_CMD and changes nothing else. -/
theorem perform_cmd_of_not_wellFormed {w : CommandWord} (hw : commandWellFormed w = false) {s : State}
    (hs : busy s.block = false) :
    perform (.cmd w) s = .next { s with
      rsp := some { op := w.extractLsb' 0 3, status := .fatalBadCmd, sample := zeroSample, freq := 0 } } := by
  rw [perform_of_reserved (decode_cmd_of_not_wellFormed hw), acceptCommand_of_not_busy hs]
  rfl

/-! ### The frame on the wire (R53, R54) -/

theorem fieldBytes_flatMap_getElem? (l : List (BitVec 16)) (i : Nat) :
    (l.flatMap fieldBytes)[2 * i]? = l[i]?.map (·.extractLsb' 0 8) ∧
      (l.flatMap fieldBytes)[2 * i + 1]? = l[i]?.map (·.extractLsb' 8 8) := by
  induction l generalizing i with
  | nil => simp
  | cons x xs ih =>
    cases i with
    | zero => simp [fieldBytes]
    | succ k => simpa [fieldBytes, Nat.mul_add] using ih k

@[simp] theorem dataBytes_length (raw : Vector (BitVec 16) 6) : (dataBytes raw).length = 12 := by
  simp [dataBytes, fieldBytes, List.length_flatMap]

theorem extractLsb'_high_append_low (x : BitVec 16) : x.extractLsb' 8 8 ++ x.extractLsb' 0 8 = x :=
  BitVec.extractLsb'_append_extractLsb' (w := 8) (len := 8)

theorem frameOfBytes_eq_some {bs : List Byte} (h : bs.length = 16) :
    ∃ F, frameOfBytes bs = some F ∧ F.toList = bs :=
  ⟨_, dif_pos h, rfl⟩

/-- A field of a frame, from the two bytes that hold it (20_memory.md R32). -/
theorem memRead2_of_bytes {F : Frame} {addr : Nat} (h : addr + 2 ≤ 16) {x : BitVec 16}
    (hlow : F.toList[addr]? = some (x.extractLsb' 0 8)) (hhigh : F.toList[addr + 1]? = some (x.extractLsb' 8 8)) :
    memRead2 F addr h = x := by
  have e0 : F[addr] = x.extractLsb' 0 8 := by simpa [show addr < 16 by omega] using hlow
  have e1 : F[addr + 1] = x.extractLsb' 8 8 := by simpa [show addr + 1 < 16 by omega] using hhigh
  rw [memRead2, e0, e1, extractLsb'_high_append_low]

/-- R85 (a): fourteen bytes followed by their CRC are valid. -/
theorem validate_of_toList_eq_append_crcBytes {F : Frame} {P : List Byte} (hP : P.length = 14)
    (hF : F.toList = P ++ crcBytes (crc16 P)) : validate F = true := by
  have hinput : crcInput F = P := by rw [crcInput, hF]; exact List.take_left' hP
  have hfield : crcField F = crc16 P := by
    apply memRead2_of_bytes <;> simp [hF, hP, crcBytes]
  simp [validate, hinput, hfield]

theorem wireFrame_eq_append_crcBytes (raw : Vector (BitVec 16) 6) :
    wireFrame raw = (markerBytes ++ dataBytes raw) ++ crcBytes (crc16 (markerBytes ++ dataBytes raw)) :=
  (List.append_assoc _ _ _).symm

theorem wireFrame_length (raw : Vector (BitVec 16) 6) : (wireFrame raw).length = 16 := by
  simp [wireFrame, bodyBytes, markerBytes, crcBytes]

theorem wireFrame_getElem?_two_add (raw : Vector (BitVec 16) 6) {k : Nat} (hk : k < 12) :
    (wireFrame raw)[2 + k]? = (dataBytes raw)[k]? := by
  have hmarker : markerBytes.length ≤ 2 + k := Nat.le_add_right 2 k
  have hdata : 2 + k - markerBytes.length < (dataBytes raw).length := by simp [markerBytes]; omega
  rw [wireFrame, bodyBytes, List.getElem?_append_right hmarker, List.getElem?_append_left hdata]
  simp [markerBytes]

/-- R54 on the frame of R53: the field is the raw value put there. -/
theorem rawField_of_wireFrame {F : Frame} {raw : Vector (BitVec 16) 6} (hF : F.toList = wireFrame raw) (i : Fin 6) :
    rawField F i i.isLt = raw[i].toInt := by
  obtain ⟨hlow, hhigh⟩ := fieldBytes_flatMap_getElem? raw.toList i
  have hfield : memRead2 F (2 + 2 * i) (by omega) = raw[i] := by
    apply memRead2_of_bytes
    · rw [hF, wireFrame_getElem?_two_add raw (by omega), dataBytes, hlow]
      simp
    · rw [hF, Nat.add_assoc, wireFrame_getElem?_two_add raw (by omega), dataBytes, hhigh]
      simp
  rw [rawField, hfield]

/-! ### Decoding with no zero reference (42_sample_decoder.md R92, R97) -/

theorem rdiv_ten_mul (n : Int) : rdiv (10 * n) 10 = n := by
  have hnearest := rdivBy_nearest Config.roundTies (10 * n) (d := 10) (by decide)
  rw [rdiv]
  omega

theorem difference_zeroValues_force (F : Frame) {i : Fin 6} (hi : i.val < 3) :
    difference F zeroValues i = 10 * rawField F i i.isLt := by
  simp [difference, scaleK, zeroValues, Config.forceDiv, hi]

theorem decodeFrame_zeroValues (F : Frame) (i : Fin 6) :
    (decodeFrame F zeroValues)[i] =
      if i.val < 3 then rawField F i i.isLt else rdiv (rawField F i i.isLt) 10 := by
  have helem : (decodeFrame F zeroValues)[i] = rdiv (difference F zeroValues i) 10 := by
    simp [decodeFrame, decodeBy, rdiv]
  rw [helem]
  split_ifs with hi
  · rw [difference_zeroValues_force F hi, rdiv_ten_mul]
  · rw [Safety.difference_zeroValues_torque F (Nat.not_lt.mp hi)]

/-! ### The packed response (R56, R57) -/

/-- Component `i` has `i` components below it; those above it do not reach down to its bits. -/
theorem packSample_component (v : Sample) (i : Fin 6) : (packSample v).extractLsb' (18 * i.val) 18 = v[i] := by
  fin_cases i <;> rw [packSample] <;> repeat rw [BitVec.extractLsb'_append_eq_of_add_le (by decide)]
  · exact BitVec.extractLsb'_eq_self
  all_goals exact BitVec.extractLsb'_append_eq_left

theorem packResponse_op (r : Response) : (packResponse r).extractLsb' 0 3 = r.op := by
  rw [packResponse, BitVec.extractLsb'_append_eq_of_add_le (by decide),
    BitVec.extractLsb'_append_eq_of_add_le (by decide)]
  exact BitVec.extractLsb'_append_eq_right

theorem packResponse_status (r : Response) : (packResponse r).extractLsb' 3 4 = statusCode r.status := by
  rw [packResponse, BitVec.extractLsb'_append_eq_of_add_le (by decide),
    BitVec.extractLsb'_append_eq_of_add_le (by decide)]
  exact BitVec.extractLsb'_append_eq_left

theorem packResponse_freq (r : Response) : (packResponse r).extractLsb' 115 64 = r.freq :=
  BitVec.extractLsb'_append_eq_left

theorem packResponse_sample (r : Response) (i : Fin 6) :
    (packResponse r).extractLsb' (7 + 18 * i.val) 18 = r.sample[i] := by
  rw [packResponse, BitVec.extractLsb'_append_eq_of_add_le (by omega), BitVec.extractLsb'_append_eq_of_le (by omega),
    Nat.add_sub_cancel_left, packSample_component]

/-- Bits 3:2 of a status code are its class (R57, 60_exceptions.md R137). -/
theorem statusCode_class (st : Status) : (statusCode st).extractLsb' 2 2 = classCode (statusClass st) := by
  cases st <;> decide

/-! ### The events of a cycle (R60, R61) -/

theorem commandEvents_of_busy {b : Block} (hb : busy b = true) (p : PinsIn) : commandEvents p b = [] := by
  simp [commandEvents, cmdReady, hb]

theorem commandEvents_of_not_busy {b : Block} (hb : busy b = false) (p : PinsIn) :
    commandEvents p b = p.cmd.toList.map .cmd := by
  cases hcmd : p.cmd <;> simp [commandEvents, cmdReady, hb, hcmd]

theorem receiveEvents_of_not_busy {b : Block} (hb : busy b = false) (p : PinsIn) : receiveEvents p b = [] := by
  simp [receiveEvents, rxReady, hb]

theorem receiveEvents_of_timeout {b : Block} (hb : busy b = true) {p : PinsIn} (ht : p.rxTimeout = true) :
    receiveEvents p b = [.rx (receiveWord true 0)] := by
  simp [receiveEvents, rxReady, hb, ht]

theorem receiveEvents_of_not_timeout {b : Block} (hb : busy b = true) {p : PinsIn} (ht : p.rxTimeout = false) :
    receiveEvents p b = p.rx.toList.map fun d => .rx (receiveWord false d) := by
  cases hrx : p.rx <;> simp [receiveEvents, rxReady, hb, ht, hrx]

/-- A command and a receive event never share a cycle, so at most one event comes before TICK. -/
theorem length_commandEvents_append_receiveEvents_le (p : PinsIn) (b : Block) :
    (commandEvents p b ++ receiveEvents p b).length ≤ 1 := by
  cases hb : busy b with
  | false =>
    rw [commandEvents_of_not_busy hb, receiveEvents_of_not_busy hb]
    cases p.cmd <;> simp
  | true =>
    rw [commandEvents_of_busy hb]
    cases ht : p.rxTimeout with
    | true => simp [receiveEvents_of_timeout hb ht]
    | false =>
      rw [receiveEvents_of_not_timeout hb ht]
      cases p.rx <;> simp

theorem cycle_of_not_rst {p : PinsIn} (hp : p.rst = false) (s : State) :
    cycle p s = runWords (commandEvents p s.block ++ receiveEvents p s.block ++
      (if p.tick then [.tick] else [])) s := by
  simp [cycle, cycleEvents, hp]

theorem cycle_of_not_busy {p : PinsIn} (hp : p.rst = false) {s : State} (hb : busy s.block = false) :
    cycle p s = runWords (p.cmd.toList.map .cmd ++ (if p.tick then [.tick] else [])) s := by
  rw [cycle_of_not_rst hp, commandEvents_of_not_busy hb, receiveEvents_of_not_busy hb, List.append_nil]

theorem cycle_of_timeout {p : PinsIn} (hp : p.rst = false) {s : State} (hb : busy s.block = true)
    (ht : p.rxTimeout = true) :
    cycle p s = runWords ([.rx (receiveWord true 0)] ++ (if p.tick then [.tick] else [])) s := by
  rw [cycle_of_not_rst hp, commandEvents_of_busy hb, receiveEvents_of_timeout hb ht, List.nil_append]

theorem cycle_of_not_timeout {p : PinsIn} (hp : p.rst = false) {s : State} (hb : busy s.block = true)
    (ht : p.rxTimeout = false) :
    cycle p s = runWords (p.rx.toList.map (fun d => .rx (receiveWord false d)) ++
      (if p.tick then [.tick] else [])) s := by
  rw [cycle_of_not_rst hp, commandEvents_of_busy hb, receiveEvents_of_not_timeout hb ht, List.nil_append]

theorem not_commandTaken_and_byteTaken (p : PinsIn) (b : Block) : (commandTaken p b && byteTaken p b) = false := by
  cases hb : busy b <;> simp [commandTaken, byteTaken, cmdReady, rxReady, hb]

theorem not_byteTaken_of_timeout {p : PinsIn} (ht : p.rxTimeout = true) (b : Block) : byteTaken p b = false := by
  simp [byteTaken, ht]

/-! ### Responses of a cycle, and its TICK -/

theorem runWords_singleton {x : InputWord} {s t : State} (h : perform x s = .next t) :
    runWords [x] s = .next { state := t, responses := t.rsp.toList } := by
  simp [runWords_cons h, runWords_nil]

theorem runWords_answers_at_most_once {ws : List InputWord} (h : ws.length ≤ 1) (s : State) :
    ∃ e, runWords ws s = .next e ∧ e.responses.length ≤ 1 := by
  match ws, h with
  | [], _ => exact ⟨_, runWords_nil s, Nat.zero_le 1⟩
  | [x], _ =>
    obtain ⟨f, hf⟩ := perform_eq_react_of_block x
    exact ⟨_, runWords_singleton (hf s), Option.length_toList_le⟩

/-- A TICK at the end of a trace adds one to TIME and no response (44_rate_estimator.md R110). -/
theorem runWords_append_tick {ws : List InputWord} {s : State} {e : TraceEnd} (h : runWords ws s = .next e) :
    runWords (ws ++ [.tick]) s = .next {
      state := { e.state with block := { e.state.block with time := e.state.block.time + 1 }, rsp := none }
      responses := e.responses } := by
  have htick : perform .tick e.state = .next (e.state.react _) :=
    (perform_of_instr Laws.RoundTrip.tick e.state).trans (exec_tick e.state)
  have happend := runWords_append h (runWords_singleton htick)
  rw [State.react_rsp, Option.toList_none, List.append_nil] at happend
  exact happend

/-- A cycle with `tick` ends as the same cycle without it, TIME one more: the events before TICK see the old TIME. -/
theorem cycle_tick_after {p : PinsIn} (hp : p.rst = false) (s : State) :
    ∃ e, cycle { p with tick := false } s = .next e ∧ e.responses.length ≤ 1 ∧
      ∃ e', cycle { p with tick := true } s = .next e' ∧ e'.responses = e.responses ∧
        e'.state = { e.state with
          block := { e.state.block with time := e.state.block.time + 1 }
          rsp := none } := by
  obtain ⟨e, he, hle⟩ :=
    runWords_answers_at_most_once (length_commandEvents_append_receiveEvents_le p s.block) s
  have hwithout : cycle { p with tick := false } s = .next e := by
    rw [cycle_of_not_rst (p := { p with tick := false }) hp]
    exact (congrArg (runWords · s) (List.append_nil _)).trans he
  have hwith := (cycle_of_not_rst (p := { p with tick := true }) hp s).trans (runWords_append_tick he)
  exact ⟨e, hwithout, hle, _, hwith, rfl, rfl⟩

end Sys2Proof.Machine

namespace Sys2Proof.Proofs.EncodingFamily

open Sys2Proof.Machine

/-- Settles O1: one direction by the round trip, the other by the port the word arrives on. -/
theorem decodeAgreesWithEncode : Obligations.DecodeAgreesWithEncode := by
  refine fun x i => ⟨eq_encode_or_timeout_of_decode, ?_⟩
  rintro (rfl | ⟨rfl, d, rfl⟩)
  · exact decode_encode i
  · exact decode_receiveWord_true d

/-- Settles O2: the well-formedness test, the table of the six words, and the two outcomes of decoding a word. -/
theorem reservedCommandWordRefused : Obligations.ReservedCommandWordRefused :=
  fun w => ⟨commandWellFormed_iff w, commandWellFormed_iff_mem w, decode_cmd_of_wellFormed,
    fun hw _ hs => perform_cmd_of_not_wellFormed hw hs⟩

/-- Settles O38: the frame of the 16 wire bytes carries its own CRC, and its fields are the raw values. -/
theorem wireFrameDecodesToItsRawValues : Obligations.WireFrameDecodesToItsRawValues := by
  intro raw
  obtain ⟨F, hsome, hF⟩ := frameOfBytes_eq_some (wireFrame_length raw)
  have hvalid : validate F = true :=
    validate_of_toList_eq_append_crcBytes (by simp [markerBytes]) (hF.trans (wireFrame_eq_append_crcBytes raw))
  refine ⟨F, hsome, hvalid, fun i => ⟨rawField_of_wireFrame hF i, ?_⟩⟩
  rw [decodeFrame_zeroValues, rawField_of_wireFrame hF i]

/-- Settles O54: each field is cut out of the concatenation at the sum of the widths below it. -/
theorem packedResponseLayout : Obligations.PackedResponseLayout :=
  ⟨rfl, fun r => ⟨packResponse_op r, packResponse_status r, packResponse_sample r, packResponse_freq r,
    statusCode_class r.status⟩⟩

/-- Settles O55: by the events of a cycle in each state of the wires; one event before TICK answers at most once. -/
theorem cyclePerformsItsEventsInOrder : Obligations.CyclePerformsItsEventsInOrder := by
  intro p s
  refine ⟨fun hp => by simp [cycle, cycleEvents, hp], ?_, not_commandTaken_and_byteTaken p s.block,
    fun ht => not_byteTaken_of_timeout ht s.block, fun hp => cycle_tick_after hp s⟩
  rintro hp _ rfl
  refine ⟨fun w hb hcmd => ?_, fun hb hcmd => ?_, fun hb ht => cycle_of_timeout hp hb ht,
    fun d hb ht hrx => ?_, fun hb ht hrx => ?_⟩
  · simp [cycle_of_not_busy hp hb, hcmd]
  · simp [cycle_of_not_busy hp hb, hcmd]
  · simp [cycle_of_not_timeout hp hb ht, hrx]
  · simp [cycle_of_not_timeout hp hb ht, hrx]

/-- Settles O3: the patterns of R47, R50 and R51 are the encodings of their events, TIMEOUT's but for its data. -/
theorem patternWordsDecode : Obligations.PatternWordsDecode :=
  ⟨decode_encode .nop, decode_encode (.start false), decode_encode (.start true), decode_encode .read,
    decode_encode .stop, decode_encode .rateRestart, decode_encode (.byte 0x4E#8), decode_receiveWord_true 0xA5#8,
    decode_encode .tick, decode_encode .reset⟩

end Sys2Proof.Proofs.EncodingFamily

/-! SUPPORT. Proofs of the family 40_frame_assembler.md: accepted bytes and the window (R66 to R70), events that are not
accepted (R74), whole reads (R73, R75, R76), how BUSY ends (R65), and the bytes a read never looks at (R71). -/

namespace Sys2Proof.Machine

/-! ### The completion of a read, by session state (R72) -/

theorem complete_of_calDiscard {b : Block} (h : b.sess = .calDiscard) (o : ReadOutcome) :
    complete b o = completeDiscard b := by
  simp [complete, h]

theorem complete_of_calCapture {b : Block} (h : b.sess = .calCapture) (o : ReadOutcome) :
    complete b o = completeCapture b o := by
  simp [complete, h]

theorem complete_of_reading {b : Block} (h : b.sess = .reading) (o : ReadOutcome) :
    complete b o = completeReading b o := by
  simp [complete, h]

/-- The reaction with another window in its block. -/
def withWindow (r : Reaction) (y : Window) : Reaction := { r with block := { r.block with sr := y } }

theorem completeCapture_with_sr_cnt (b : Block) (y : Window) (c : BitVec 5) (o : ReadOutcome) :
    completeCapture { b with sr := y, cnt := c } o = withWindow (completeCapture b o) y := by
  cases o with
  | frame F => simp only [completeCapture]; split_ifs <;> rfl
  | short => rfl
  | timeout => rfl

theorem completeReading_with_sr_cnt (b : Block) (y : Window) (c : BitVec 5) (o : ReadOutcome) :
    completeReading { b with sr := y, cnt := c } o = withWindow (completeReading b o) y := by
  cases o with
  | frame F => simp only [completeReading]; split_ifs <;> rfl
  | short => rfl
  | timeout => rfl

/-- A completion gets its outcome from its caller: it reads neither the window nor CNT. -/
theorem complete_with_sr_cnt {b : Block} (hb : busy b = true) (y : Window) (c : BitVec 5) (o : ReadOutcome) :
    complete { b with sr := y, cnt := c } o = withWindow (complete b o) y := by
  rcases (busy_iff b).mp hb with hs | hs | hs
  · rw [complete_of_calDiscard (b := { b with sr := y, cnt := c }) hs, complete_of_calDiscard hs]
    rfl
  · rw [complete_of_calCapture (b := { b with sr := y, cnt := c }) hs, complete_of_calCapture hs]
    exact completeCapture_with_sr_cnt b y c o
  · rw [complete_of_reading (b := { b with sr := y, cnt := c }) hs, complete_of_reading hs]
    exact completeReading_with_sr_cnt b y c o

theorem complete_cnt {b : Block} (hb : busy b = true) (o : ReadOutcome) : (complete b o).block.cnt = 0 := by
  rcases complete_cases o hb with ⟨-, h⟩ | ⟨-, F, -, -, h⟩ | ⟨-, st, -, h⟩ | ⟨-, F, -, -, h⟩ | ⟨-, st, -, h⟩ <;>
    rw [h] <;> rfl

/-! ### BYTE and TIMEOUT, accepted (R66 to R70) and not (R74) -/

theorem exec_byte_of_match {s : State} (hb : busy s.block = true) {d : Byte}
    (hm : markerMatch (srPush s.block.sr d) (cntNext s.block.cnt) = true) :
    exec (.byte d) s = .next (s.react (complete { s.block with sr := srPush s.block.sr d }
      (matchOutcome (srPush s.block.sr d) (cntNext s.block.cnt)))) := by
  rw [exec_byte, acceptReceive_of_busy hb, takeByte, if_pos hm]

theorem exec_byte_of_no_match {s : State} (hb : busy s.block = true) {d : Byte}
    (hm : markerMatch (srPush s.block.sr d) (cntNext s.block.cnt) = false) :
    exec (.byte d) s = .next (s.react
      { block := { s.block with sr := srPush s.block.sr d, cnt := cntNext s.block.cnt }, rsp := none }) := by
  rw [exec_byte, acceptReceive_of_busy hb, takeByte, if_neg (by simp [hm])]

theorem exec_timeout_of_busy {s : State} (hb : busy s.block = true) :
    exec .timeout s = .next (s.react (complete s.block .timeout)) := by
  rw [exec_timeout, acceptReceive_of_busy hb]

/-- R74: BYTE and TIMEOUT alike. -/
theorem perform_rx_of_not_busy {s : State} (hb : busy s.block = false) (v : ReceiveWord) :
    perform (.rx v) s = .next { s with rsp := none } := by
  obtain ⟨t, d, rfl⟩ := exists_eq_receiveWord v
  cases t with
  | false => rw [perform_byte, exec_byte, acceptReceive_of_not_busy hb, react_unchanged]
  | true =>
    rw [perform_of_instr (decode_receiveWord_true d), exec_timeout, acceptReceive_of_not_busy hb, react_unchanged]

/-- R36: what the byte source offers while the block is not BUSY stays with it. -/
theorem byteTaken_of_not_busy {b : Block} (hb : busy b = false) (p : PinsIn) : byteTaken p b = false := by
  simp [byteTaken, rxReady, hb]

/-! ### The window and the candidate frame, byte by byte (R66, R68) -/

/-- The window is the shifted one when every byte stands where R66 puts it. -/
theorem eq_srPush {sr sr' : Window} {d : Byte} (hshift : ∀ i : Fin 15, sr'[i.val] = sr[i.val + 1])
    (hnew : sr'[15] = d) : sr' = srPush sr d := by
  ext1 i hi
  rcases Nat.lt_or_ge i 15 with hlt | hge
  · rw [srPush_shift sr d i hlt]
    exact hshift ⟨i, hlt⟩
  · obtain rfl : i = 15 := by omega
    rw [srPush_newest, hnew]

/-- The frame is the candidate frame when every byte stands where R68 puts it. -/
theorem eq_candidateFrame {sr : Window} {F : Frame} (h0 : F[0] = 0x20#8) (h1 : F[1] = 0x4E#8)
    (hbody : ∀ i : Fin 14, F[2 + i.val] = sr[i.val]) : F = candidateFrame sr := by
  ext1 i hi
  match i, hi with
  | 0, _ => rw [h0, candidateFrame_zero]
  | 1, _ => rw [h1, candidateFrame_one]
  | k + 2, hi =>
    have hk : k < 14 := by omega
    have hF : F[2 + k] = (candidateFrame sr)[2 + k] := (hbody ⟨k, hk⟩).trans (candidateFrame_body sr k hk).symm
    simpa only [Nat.add_comm k 2] using hF

theorem matchOutcome_eq_ite (sr : Window) (c : BitVec 5) :
    matchOutcome sr c = if c.toNat = 16 then .frame (candidateFrame sr) else .short := by
  split_ifs with hc
  · exact matchOutcome_frame hc
  · exact matchOutcome_short hc

/-! ### Accepted bytes -/

/-- The block after accepting bytes that complete no read: each is pushed and counted. -/
def acceptBytes (b : Block) (bs : List Byte) : Block :=
  { b with sr := bs.foldl srPush b.sr, cnt := cntNext^[bs.length] b.cnt }

theorem foldl_srPush_toList (bs : List Byte) (sr : Window) :
    (bs.foldl srPush sr).toList = (sr.toList ++ bs).drop bs.length := by
  induction bs generalizing sr with
  | nil => simp
  | cons d ds ih =>
    have hpush : (srPush sr d).toList ++ ds = (sr.toList ++ d :: ds).drop 1 := by
      rw [srPush_toList, List.drop_append_of_le_length (by simp), List.append_assoc]
      rfl
    rw [List.foldl_cons, ih, hpush, List.drop_drop, List.length_cons, Nat.add_comm]

theorem iterate_cntNext_toNat (n : Nat) {c : BitVec 5} (hc : c.toNat ≤ 16) :
    (cntNext^[n] c).toNat = min (c.toNat + n) 16 := by
  induction n generalizing c with
  | zero => simp [hc]
  | succ n ih =>
    have hnext := cntNext_toNat c
    rw [Function.iterate_succ_apply, ih (by omega)]
    omega

/-- The newest byte of the read in flight, if it has accepted one: what the next byte is compared with. -/
def newestOfRead (b : Block) : List Byte := if b.cnt = 0 then [] else [b.sr[15]]

theorem newestOfRead_of_cnt_zero {b : Block} (h : b.cnt = 0) : newestOfRead b = [] := if_pos h

theorem cntNext_ne_zero (c : BitVec 5) : cntNext c ≠ 0 := by
  intro h
  have hnat : min (c.toNat + 1) 16 = 0 := (cntNext_toNat c).symm.trans (congrArg BitVec.toNat h)
  omega

theorem newestOfRead_of_cnt_ne_zero {b : Block} (h : b.cnt ≠ 0) : newestOfRead b = [b.sr[15]] := if_neg h

theorem acceptBytes_append_singleton (b : Block) (bs : List Byte) (d : Byte) :
    acceptBytes b (bs ++ [d]) =
      { b with sr := srPush (acceptBytes b bs).sr d, cnt := cntNext (acceptBytes b bs).cnt } := by
  simp [acceptBytes, Function.iterate_succ_apply']

theorem newestOfRead_acceptBytes (b : Block) (bs : List Byte) (d : Byte) :
    newestOfRead (acceptBytes b (bs ++ [d])) = [d] := by
  rw [acceptBytes_append_singleton, newestOfRead_of_cnt_ne_zero (cntNext_ne_zero _)]
  simp only [srPush_newest]

/-- R67: a byte matches when it and the newest byte of the read are the marker pair. -/
theorem markerMatch_srPush_eq_hasMarker (b : Block) (d : Byte) :
    markerMatch (srPush b.sr d) (cntNext b.cnt) = hasMarker (newestOfRead b ++ [d]) := by
  by_cases hc : b.cnt = 0
  · rw [newestOfRead_of_cnt_zero hc, hc]
    rfl
  · have hpos : 2 ≤ (cntNext b.cnt).toNat := by
      have hne : b.cnt.toNat ≠ 0 := fun h => hc (BitVec.eq_of_toNat_eq h)
      rw [cntNext_toNat]
      omega
    simp only [markerMatch, newestOfRead_of_cnt_ne_zero hc, hpos, srPush_shift, srPush_newest, hasMarker,
      List.singleton_append, decide_true, Bool.true_and, Bool.or_false, Nat.reduceAdd, Nat.reduceLT]

theorem hasMarker_eq_false_of_append_cons {b : Block} {d : Byte} {ds : List Byte}
    (h : hasMarker (newestOfRead b ++ d :: ds) = false) :
    hasMarker (newestOfRead b ++ [d]) = false ∧ hasMarker (d :: ds) = false := by
  unfold newestOfRead at h ⊢
  split_ifs at h ⊢ with hc
  · exact ⟨rfl, h⟩
  · simpa [hasMarker] using h

/-- Bytes without a marker pair are accepted one after the other and complete no read. -/
theorem runWords_byteWords_of_no_marker (bs : List Byte) {s : State} (hb : busy s.block = true)
    (hm : hasMarker (newestOfRead s.block ++ bs) = false) :
    ∃ rsp, runWords (byteWords bs) s =
      .next { state := { s with block := acceptBytes s.block bs, rsp := rsp }, responses := [] } := by
  induction bs generalizing s with
  | nil => exact ⟨s.rsp, rfl⟩
  | cons d ds ih =>
    obtain ⟨hd, hds⟩ := hasMarker_eq_false_of_append_cons hm
    have hfirst : perform (.rx (receiveWord false d)) s =
        .next (s.react { block := acceptBytes s.block [d], rsp := none }) :=
      (perform_byte d s).trans (exec_byte_of_no_match hb ((markerMatch_srPush_eq_hasMarker s.block d).trans hd))
    have hnewest : newestOfRead (acceptBytes s.block [d]) = [d] := newestOfRead_acceptBytes s.block [] d
    obtain ⟨rsp, hrest⟩ := ih (s := s.react { block := acceptBytes s.block [d], rsp := none }) hb
      (by rwa [State.react_block, hnewest])
    refine ⟨rsp, ?_⟩
    rw [byteWords, List.map_cons, runWords_cons hfirst, ← byteWords, hrest]
    rfl

/-! ### A whole read -/

/-- The window at the end of a read that accepted `bs` and then the marker. -/
def readWindow (sr : Window) (bs : List Byte) : Window := (bs ++ markerBytes).foldl srPush sr

theorem readWindow_toList (sr : Window) (bs : List Byte) :
    (readWindow sr bs).toList = (sr.toList ++ bs ++ markerBytes).drop (bs.length + 2) := by
  rw [readWindow, foldl_srPush_toList, List.append_assoc, List.length_append]
  rfl

/-- The completion of a read that accepted `bs` and then the marker. -/
def readReaction (b : Block) (bs : List Byte) : Reaction :=
  complete { b with sr := readWindow b.sr bs }
    (if 14 ≤ bs.length then .frame (candidateFrame (readWindow b.sr bs)) else .short)

/-- The marker's first byte ends no pair. -/
theorem hasMarker_append_marker0 {bs : List Byte} (h : hasMarker bs = false) :
    hasMarker (bs ++ [Config.marker0]) = false := by
  induction bs with
  | nil => rfl
  | cons a as ih =>
    cases as with
    | nil => simp [hasMarker, Config.marker0, Config.marker1]
    | cons c cs =>
      simp only [hasMarker, Bool.or_eq_false_iff] at h
      simp only [List.cons_append, hasMarker, Bool.or_eq_false_iff]
      exact ⟨h.1, ih h.2⟩

/-- R14, R69: the count tells whether 14 bytes came before the marker. -/
theorem matchOutcome_of_cnt_zero {b : Block} (hc : b.cnt = 0) (bs : List Byte) (sr : Window) :
    matchOutcome sr (cntNext (acceptBytes b (bs ++ [Config.marker0])).cnt) =
      if 14 ≤ bs.length then .frame (candidateFrame sr) else .short := by
  have hcnt : (cntNext (acceptBytes b (bs ++ [Config.marker0])).cnt).toNat = min (bs.length + 2) 16 := by
    have hzero : (0 : BitVec 5).toNat = 0 := rfl
    rw [cntNext_toNat, acceptBytes, hc, iterate_cntNext_toNat _ (by decide), List.length_append,
      List.length_singleton]
    omega
  rw [matchOutcome_eq_ite, hcnt]
  exact if_congr (by omega) rfl rfl

/-- R66 to R69: a read that accepts bytes without a marker pair and then the marker ends exactly there. -/
theorem runWords_read {s : State} {bs : List Byte} (hb : busy s.block = true) (hc : s.block.cnt = 0)
    (hm : hasMarker bs = false) :
    runWords (byteWords (bs ++ markerBytes)) s = .next {
      state := s.react (readReaction s.block bs)
      responses := (readReaction s.block bs).rsp.toList } := by
  have hbefore : hasMarker (newestOfRead s.block ++ (bs ++ [Config.marker0])) = false := by
    rw [newestOfRead_of_cnt_zero hc]
    exact hasMarker_append_marker0 hm
  obtain ⟨rsp, hrun⟩ := runWords_byteWords_of_no_marker _ hb hbefore
  have hmatch := markerMatch_srPush_eq_hasMarker (acceptBytes s.block (bs ++ [Config.marker0])) Config.marker1
  rw [newestOfRead_acceptBytes] at hmatch
  have hwindow : srPush (acceptBytes s.block (bs ++ [Config.marker0])).sr Config.marker1 =
      readWindow s.block.sr bs := by
    simp [acceptBytes, readWindow, markerBytes]
  have hlast := exec_byte_of_match (s := { s with block := acceptBytes s.block (bs ++ [Config.marker0]), rsp := rsp })
    hb hmatch
  rw [hwindow, matchOutcome_of_cnt_zero hc] at hlast
  have hcomplete : complete { acceptBytes s.block (bs ++ [Config.marker0]) with sr := readWindow s.block.sr bs }
      (if 14 ≤ bs.length then .frame (candidateFrame (readWindow s.block.sr bs)) else .short) =
      readReaction s.block bs :=
    (complete_with_sr_cnt hb _ _ _).trans (complete_with_sr_cnt hb _ s.block.cnt _).symm
  rw [hcomplete] at hlast
  have hsplit : byteWords (bs ++ markerBytes) =
      byteWords (bs ++ [Config.marker0]) ++ [.rx (receiveWord false Config.marker1)] := by
    simp [byteWords, markerBytes]
  rw [hsplit]
  exact runWords_append hrun (runWords_singleton ((perform_byte _ _).trans hlast))

theorem perform_read_of_ready {s : State} (hs : s.block.sess = .ready) :
    perform (.cmd 0x02#8) s =
      .next (s.react { block := { s.block with cnt := 0, sess := .reading }, rsp := none }) := by
  have hb : busy s.block = false := (not_busy_iff _).mpr (.inr (.inl hs))
  have hexec : perform (.cmd 0x02#8) s = exec .read s := perform_of_instr Laws.RoundTrip.read s
  rw [hexec, exec_read, acceptCommand_of_not_busy hb, beginRead, if_pos hs]

/-- R75: a READ with fewer than 14 bytes before the marker gives REC_SHORT and leaves all but CNT and the window. -/
theorem runWords_read_short {s : State} {x : List Byte} (hs : s.block.sess = .ready) (hx : x.length < 14)
    (hm : hasMarker x = false) :
    runWords ([.cmd 0x02#8] ++ byteWords (x ++ markerBytes)) s = .next {
      state := { s with
        block := { s.block with cnt := 0, sr := readWindow s.block.sr x }
        rsp := some { op := opRead, status := .recShort, sample := zeroSample, freq := 0 } }
      responses := [{ op := opRead, status := .recShort, sample := zeroSample, freq := 0 }] } := by
  have hshort : readReaction { s.block with cnt := 0, sess := .reading } x =
      { block := { s.block with cnt := 0, sr := readWindow s.block.sr x }
        rsp := some { op := opRead, status := .recShort, sample := zeroSample, freq := 0 } } := by
    rw [readReaction, if_neg (by omega), complete_of_reading rfl, completeReading, failRead, ← hs]
    rfl
  have hbytes := runWords_read (s := s.react { block := { s.block with cnt := 0, sess := .reading }, rsp := none })
    rfl rfl hm
  rw [State.react_block, hshort] at hbytes
  exact runWords_append (runWords_singleton (perform_read_of_ready hs)) hbytes

/-! ### The sample of a steady-state read (R76, 45_session_commands.md R125) -/

theorem decodeFrame_refValues (F : Frame) (z : ZeroRef) (i : Fin 6) :
    (decodeFrame F (refValues z))[i] =
      if i.val < 3 then rawField F i i.isLt - z[i].toInt else rdiv (rawField F i i.isLt - 10 * z[i].toInt) 10 := by
  have helem : (decodeFrame F (refValues z))[i] = rdiv (difference F (refValues z) i) 10 := by
    simp [decodeFrame, decodeBy, rdiv]
  rw [helem]
  split_ifs with hi
  · have hforce : difference F (refValues z) i = 10 * (rawField F i i.isLt - z[i].toInt) := by
      have hscale : scaleK i = 10 := if_pos hi
      have href : (refValues z)[i] = z[i].toInt := by simp [refValues]
      rw [difference, hscale, href]
      ring
    rw [hforce, rdiv_ten_mul]
  · simp [difference, scaleK, refValues, Config.torqueDiv, hi]

/-- R93: against a reference of 16-bit elements every component fits in 18 bits. -/
theorem decodeFrame_refValues_bounds (F : Frame) (z : ZeroRef) (i : Fin 6) :
    -131072 ≤ (decodeFrame F (refValues z))[i] ∧ (decodeFrame F (refValues z))[i] < 131072 := by
  have hraw := Safety.rawField_bounds F i i.isLt
  have hlo := BitVec.le_toInt z[i]
  have hhi := BitVec.toInt_lt (x := z[i])
  have hround := rdivBy_nearest Config.roundTies (rawField F i i.isLt - 10 * z[i].toInt) (d := 10) (by decide)
  rw [decodeFrame_refValues, rdiv]
  split_ifs <;> omega

/-- A component of a sample holds the number stored into it when 18 bits hold that number (30_encoding.md R55). -/
theorem toInt_toSample {v : Vector Int 6} {i : Fin 6} (hlo : -131072 ≤ v[i]) (hhi : v[i] < 131072) :
    (toSample v)[i].toInt = v[i] := by
  have helem : (toSample v)[i] = BitVec.ofInt 18 v[i] := by simp [toSample]
  rw [helem]
  exact BitVec.toInt_ofInt_eq_self (by decide) hlo hhi

theorem toSample_decodeFrame_refValues {F : Frame} {raw : Vector (BitVec 16) 6} (hF : F.toList = wireFrame raw)
    (z : ZeroRef) (i : Fin 6) :
    (toSample (decodeFrame F (refValues z)))[i].toInt =
      if i.val < 3 then raw[i].toInt - z[i].toInt else rdiv (raw[i].toInt - 10 * z[i].toInt) 10 := by
  obtain ⟨hlo, hhi⟩ := decodeFrame_refValues_bounds F z i
  rw [toInt_toSample hlo hhi, decodeFrame_refValues, rawField_of_wireFrame hF]

@[simp] theorem bodyBytes_length (raw : Vector (BitVec 16) 6) : (bodyBytes raw).length = 14 := by
  simp [bodyBytes, crcBytes]

/-- After 14 bytes and the marker nothing is left of the old window. -/
theorem readWindow_bodyBytes_toList (sr : Window) (raw : Vector (BitVec 16) 6) :
    (readWindow sr (bodyBytes raw)).toList = bodyBytes raw ++ markerBytes := by
  rw [readWindow_toList, List.append_assoc, List.drop_left' (by simp)]

/-- R76: the constant marker and a frame's body are that frame again. -/
theorem candidateFrame_readWindow_bodyBytes (sr : Window) (raw : Vector (BitVec 16) 6) :
    (candidateFrame (readWindow sr (bodyBytes raw))).toList = wireFrame raw := by
  rw [candidateFrame_toList, readWindow_bodyBytes_toList, List.take_left' (bodyBytes_length raw)]
  rfl

theorem validate_of_toList_eq_wireFrame {F : Frame} {raw : Vector (BitVec 16) 6} (hF : F.toList = wireFrame raw) :
    validate F = true :=
  validate_of_toList_eq_append_crcBytes (by simp [markerBytes]) (hF.trans (wireFrame_eq_append_crcBytes raw))

/-- The writes of a delivered sample when CNT is 0 already (45_session_commands.md R125). -/
theorem deliverSample_block {b : Block} (hc : b.cnt = 0) (sr : Window) (F : Frame) :
    (deliverSample { b with sr := sr } F).block =
      { b with sess := .ready, sr := sr, count := b.count + 1, freq := (estRecord b).freq } := by
  cases b
  cases hc
  rfl

theorem readReaction_reading_body {b : Block} (hs : b.sess = .reading) (raw : Vector (BitVec 16) 6) :
    readReaction b (bodyBytes raw) = deliverSample { b with sr := readWindow b.sr (bodyBytes raw) }
      (candidateFrame (readWindow b.sr (bodyBytes raw))) := by
  have hvalid := validate_of_toList_eq_wireFrame (candidateFrame_readWindow_bodyBytes b.sr raw)
  rw [readReaction, if_pos (by simp), complete_of_reading (by exact hs), completeReading, if_pos hvalid]

/-! ### START outside IDLE (45_session_commands.md R123) -/

theorem startSession_of_ne_idle {b : Block} (h : b.sess ≠ .idle) (cal : Bool) :
    startSession b cal = raise b .fatalBadState opStart := by
  unfold startSession
  cases hs : b.sess with
  | idle => exact absurd hs h
  | _ => rfl

end Sys2Proof.Machine

namespace Sys2Proof.Safety

open Sys2Proof.Machine

/-! ### Bytes left over from earlier reads (R71) -/

theorem sameReadBytes_zero (x y : Window) : SameReadBytes 0 x y :=
  fun i hi => absurd i.isLt (Nat.not_lt.mpr hi)

theorem SameReadBytes.of_cnt_le {c d : BitVec 5} {x y : Window} (h : SameReadBytes c x y) (hle : d.toNat ≤ c.toNat) :
    SameReadBytes d x y :=
  fun i hi => h i (by omega)

/-- A push moves every byte of the read one place towards the oldest; the new byte is common. -/
theorem SameReadBytes.srPush {c : BitVec 5} {x y : Window} (h : SameReadBytes c x y) (d : Byte) :
    SameReadBytes (cntNext c) (srPush x d) (srPush y d) := by
  intro i hi
  rw [cntNext_toNat] at hi
  rcases Nat.lt_or_ge i.val 15 with hlt | hge
  · have hold := h ⟨i.val + 1, by omega⟩ (by simpa using by omega)
    simpa [srPush_shift _ d i.val hlt] using hold
  · obtain rfl : i = 15 := by omega
    simp

theorem SameReadBytes.eq_of_sixteen_le {c : BitVec 5} {x y : Window} (h : SameReadBytes c x y) (hc : 16 ≤ c.toNat) :
    x = y :=
  Vector.ext fun i hi => h ⟨i, hi⟩ (by omega)

/-- The comparator looks at two bytes, and only when both belong to the read (R67). -/
theorem SameReadBytes.markerMatch_eq {c : BitVec 5} {x y : Window} (h : SameReadBytes c x y) :
    markerMatch x c = markerMatch y c := by
  rw [Bool.eq_iff_iff, markerMatch_iff, markerMatch_iff]
  refine and_congr_right fun hc => ?_
  have h14 : x[14] = y[14] := h 14 (by simp; omega)
  have h15 : x[15] = y[15] := h 15 (by simp; omega)
  rw [h14, h15]

/-- A candidate frame is built only from sixteen bytes of the read (R68). -/
theorem SameReadBytes.matchOutcome_eq {c : BitVec 5} {x y : Window} (h : SameReadBytes c x y) :
    matchOutcome x c = matchOutcome y c := by
  by_cases hc : c.toNat = 16
  · rw [h.eq_of_sixteen_le hc.ge]
  · rw [matchOutcome_short hc, matchOutcome_short hc]

/-- Two reactions with one response, whose blocks differ at most in bytes left over from earlier reads. -/
def SameButStaleReaction (r r' : Reaction) : Prop := r.rsp = r'.rsp ∧ SameButStaleBytes r.block r'.block

/-- What the commands have in common: they keep the window, and keep CNT or clear it, so windows that agreed on the
bytes of the read still do. -/
theorem sameButStaleReaction_withWindow {b : Block} {y : Window} (hy : SameReadBytes b.cnt b.sr y) {r : Reaction}
    (hsr : r.block.sr = b.sr) (hcnt : r.block.cnt = b.cnt ∨ r.block.cnt = 0) :
    SameButStaleReaction r (withWindow r y) := by
  refine ⟨rfl, rfl, ?_⟩
  have hle : r.block.cnt.toNat ≤ b.cnt.toNat := by
    rcases hcnt with h | h <;> simp [h]
  rw [hsr]
  exact hy.of_cnt_le hle

theorem raise_sameButStale {b : Block} {y : Window} (hy : SameReadBytes b.cnt b.sr y) (st : Status) (op : BitVec 3) :
    SameButStaleReaction (raise b st op) (raise { b with sr := y } st op) :=
  sameButStaleReaction_withWindow hy rfl (.inl rfl)

theorem startSession_sameButStale {b : Block} {y : Window} (hy : SameReadBytes b.cnt b.sr y) (cal : Bool) :
    SameButStaleReaction (startSession b cal) (startSession { b with sr := y } cal) := by
  by_cases hs : b.sess = .idle
  · cases cal <;> simp only [startSession, hs] <;> exact sameButStaleReaction_withWindow hy rfl (.inr rfl)
  · rw [startSession_of_ne_idle hs, startSession_of_ne_idle (b := { b with sr := y }) hs]
    exact raise_sameButStale hy _ _

theorem beginRead_sameButStale {b : Block} {y : Window} (hy : SameReadBytes b.cnt b.sr y) :
    SameButStaleReaction (beginRead b) (beginRead { b with sr := y }) := by
  unfold beginRead
  split_ifs
  · exact sameButStaleReaction_withWindow hy rfl (.inr rfl)
  · exact raise_sameButStale hy _ _

theorem stopSession_sameButStale {b : Block} {y : Window} (hy : SameReadBytes b.cnt b.sr y) :
    SameButStaleReaction (stopSession b) (stopSession { b with sr := y }) := by
  unfold stopSession
  split_ifs <;> exact sameButStaleReaction_withWindow hy rfl (.inl rfl)

theorem restartRate_sameButStale {b : Block} {y : Window} (hy : SameReadBytes b.cnt b.sr y) :
    SameButStaleReaction (restartRate b) (restartRate { b with sr := y }) := by
  unfold restartRate
  split_ifs
  · exact sameButStaleReaction_withWindow hy rfl (.inl rfl)
  · exact raise_sameButStale hy _ _

/-- After a completion no byte of the window belongs to a read. -/
theorem complete_sameButStale {b : Block} (hb : busy b = true) (x y : Window) (o : ReadOutcome) :
    SameButStaleReaction (complete { b with sr := x } o) (complete { b with sr := y } o) := by
  have hwindow (z : Window) : complete { b with sr := z } o = withWindow (complete b o) z :=
    complete_with_sr_cnt hb z b.cnt o
  have hnone : SameReadBytes (complete b o).block.cnt x y := by
    rw [complete_cnt hb]
    exact sameReadBytes_zero x y
  rw [hwindow x, hwindow y]
  exact ⟨rfl, rfl, hnone⟩

theorem takeByte_sameButStale {b : Block} {y : Window} (hb : busy b = true) (hy : SameReadBytes b.cnt b.sr y)
    (d : Byte) : SameButStaleReaction (takeByte b d) (takeByte { b with sr := y } d) := by
  have hpush := hy.srPush d
  have hmatch := hpush.markerMatch_eq
  rcases takeByte_cases b d with ⟨hm, h⟩ | ⟨hm, h⟩ <;>
    rcases takeByte_cases { b with sr := y } d with ⟨hm', h'⟩ | ⟨hm', h'⟩
  · rw [h, h', hpush.matchOutcome_eq]
    exact complete_sameButStale hb _ _ _
  · exact nomatch hm.symm.trans (hmatch.trans hm')
  · exact nomatch hm.symm.trans (hmatch.trans hm')
  · rw [h, h']
    exact ⟨rfl, rfl, hpush⟩

theorem acceptCommand_sameButStale {b : Block} {y : Window} (hy : SameReadBytes b.cnt b.sr y) {r r' : Reaction}
    (hr : SameButStaleReaction r r') :
    SameButStaleReaction (acceptCommand b r) (acceptCommand { b with sr := y } r') := by
  cases hb : busy b with
  | true =>
    rw [acceptCommand_of_busy hb, acceptCommand_of_busy (b := { b with sr := y }) hb]
    exact ⟨rfl, rfl, hy⟩
  | false => rwa [acceptCommand_of_not_busy hb, acceptCommand_of_not_busy (b := { b with sr := y }) hb]

theorem acceptReceive_sameButStale {b : Block} {y : Window} (hy : SameReadBytes b.cnt b.sr y) {r r' : Reaction}
    (hr : busy b = true → SameButStaleReaction r r') :
    SameButStaleReaction (acceptReceive b r) (acceptReceive { b with sr := y } r') := by
  cases hb : busy b with
  | true =>
    rw [acceptReceive_of_busy hb, acceptReceive_of_busy (b := { b with sr := y }) hb]
    exact hr hb
  | false =>
    rw [acceptReceive_of_not_busy hb, acceptReceive_of_not_busy (b := { b with sr := y }) hb]
    exact ⟨rfl, rfl, hy⟩

/-- Event by event: the reactions of two blocks that differ at most in bytes left over from earlier reads. -/
theorem exec_sameButStale (i : Instr) {s t : State} (hst : SameButStaleBytes s.block t.block) :
    ∃ r r', exec i s = .next (s.react r) ∧ exec i t = .next (t.react r') ∧ SameButStaleReaction r r' := by
  obtain ⟨b, _, _⟩ := s
  obtain ⟨c, _, _⟩ := t
  obtain ⟨hc, hy⟩ := hst
  dsimp only at hc hy
  rw [hc]
  cases i with
  | nop => exact ⟨_, _, exec_nop _, exec_nop _, acceptCommand_sameButStale hy ⟨rfl, rfl, hy⟩⟩
  | start cal =>
    exact ⟨_, _, exec_start cal _, exec_start cal _,
      acceptCommand_sameButStale hy (startSession_sameButStale hy cal)⟩
  | read => exact ⟨_, _, exec_read _, exec_read _, acceptCommand_sameButStale hy (beginRead_sameButStale hy)⟩
  | stop => exact ⟨_, _, exec_stop _, exec_stop _, acceptCommand_sameButStale hy (stopSession_sameButStale hy)⟩
  | rateRestart =>
    exact ⟨_, _, exec_rateRestart _, exec_rateRestart _,
      acceptCommand_sameButStale hy (restartRate_sameButStale hy)⟩
  | byte d =>
    exact ⟨_, _, exec_byte d _, exec_byte d _,
      acceptReceive_sameButStale hy fun hb => takeByte_sameButStale hb hy d⟩
  | timeout =>
    exact ⟨_, _, exec_timeout _, exec_timeout _,
      acceptReceive_sameButStale hy fun hb => complete_sameButStale hb b.sr c.sr .timeout⟩
  | tick => exact ⟨_, _, exec_tick _, exec_tick _, rfl, rfl, hy⟩
  | reset => exact ⟨_, _, exec_reset _, exec_reset _, rfl, rfl, fun _ _ => rfl⟩

end Sys2Proof.Safety

namespace Sys2Proof.Proofs.FrameAssemblerFamily

open Sys2Proof.Machine Sys2Proof.Safety

/-- Settles O28, event by event; only a byte looks at the window, and only at bytes of the read in flight. -/
theorem staleBytesAreUnobservable : Obligations.StaleBytesAreUnobservable := by
  intro i s t s' t' hst hs ht
  obtain ⟨r, r', hr, hr', hrsp, hblock⟩ := exec_sameButStale i hst
  cases hs.symm.trans hr
  cases ht.symm.trans hr'
  exact ⟨hrsp, hblock⟩

/-- Settles O16: the window, the count and the frame of the statement are those of the model. -/
theorem byteShiftsCountsAndCompares : Obligations.ByteShiftsCountsAndCompares := by
  refine ⟨decode_receiveWord_byte, ?_⟩
  intro s d sr' cnt' F hb hshift hnew hcnt h0 h1 hbody
  obtain rfl := eq_srPush hshift hnew
  obtain rfl := cntNext_eq_of_toNat hcnt
  obtain rfl := eq_candidateFrame h0 h1 hbody
  rw [← markerMatch_iff, Bool.not_eq_true, ← matchOutcome_eq_ite]
  exact ⟨exec_byte_of_no_match hb, exec_byte_of_match hb⟩

/-- Settles O17: an accepted TIMEOUT is the completion, session state by session state. -/
theorem timeoutEffect : Obligations.TimeoutEffect := by
  refine ⟨decode_receiveWord_true, fun s => ⟨exec_timeout_of_busy, fun hs => ?_, fun hs => ?_, fun hs => ?_⟩⟩
  · rw [exec_timeout_of_busy ((busy_iff _).mpr (by simp [hs])), complete_of_calDiscard hs]
    rfl
  · rw [exec_timeout_of_busy ((busy_iff _).mpr (by simp [hs])), complete_of_calCapture hs]
    rfl
  · rw [exec_timeout_of_busy ((busy_iff _).mpr (by simp [hs])), complete_of_reading hs]
    rfl

/-- Settles O19: neither event is accepted, and a cycle that takes no byte only adds the arrivals to the held ones. -/
theorem receiveNotAcceptedWhileNotBusy : Obligations.ReceiveNotAcceptedWhileNotBusy := by
  refine ⟨fun s v hb => perform_rx_of_not_busy hb v, fun d n hb => ?_⟩
  obtain ⟨t, ht⟩ := cycle_answers_next (benchPins d n) n.state
  exact ⟨_, benchCycle_of_cycle ht, d.arrivals, by simp [byteTaken_of_not_busy hb]⟩

/-- Settles O23: no byte before the marker matches, and the window then holds the newest 16 bytes. -/
theorem readReturnsTheTrailingFourteen : Obligations.ReadReturnsTheTrailingFourteen := by
  intro s bs W F hb hc hm hW hF
  have hwindow : W = readWindow s.block.sr bs := Vector.toList_inj.mp (hW.trans (readWindow_toList _ _).symm)
  have hframe : F = candidateFrame W := Vector.toList_inj.mp (hF.trans (candidateFrame_toList W).symm)
  subst hframe hwindow
  exact ⟨_, runWords_read hb hc hm, rfl⟩

/-- Settles O24: the read's frame is the wire frame, so it is valid and decodes to its raw values. -/
theorem steadyStateReadDeliversTheSample : Obligations.SteadyStateReadDeliversTheSample := by
  intro s raw hs hc hm
  have hrun := runWords_read ((busy_iff _).mpr (.inr (.inr hs))) hc hm
  rw [readReaction_reading_body hs raw] at hrun
  have hbody := candidateFrame_readWindow_bodyBytes s.block.sr raw
  have hwords : bodyWords raw ++ markerWords = byteWords (bodyBytes raw ++ markerBytes) :=
    (List.map_append ..).symm
  rw [hwords]
  exact ⟨_, _, hrun, rfl, rfl, deliverSample_block hc _ (candidateFrame (readWindow s.block.sr (bodyBytes raw))),
    readWindow_bodyBytes_toList _ _, rfl, rfl, rfl, toSample_decodeFrame_refValues hbody _⟩

/-- Settles O26: the inner pair ends the first read and the true marker the second, both too early. -/
theorem markerInsideABodyCostsTwoShort : Obligations.MarkerInsideABodyCostsTwoShort := by
  intro s x y hs hlen hx hy
  have hfirst := runWords_read_short hs (by omega) hx
  have hrun := runWords_append hfirst (runWords_read_short hs (by omega) hy)
  rw [← List.append_assoc] at hrun
  exact ⟨_, hrun, rfl⟩

/-- Settles O45: of the twelve cases of an event, those that leave BUSY are RESET, TIMEOUT and a matching byte. -/
theorem busyEndsOnlyAtAMarkerTimeoutOrReset : Obligations.BusyEndsOnlyAtAMarkerTimeoutOrReset := by
  intro i s t hb h hidle
  obtain ⟨r, rfl, hc⟩ := exec_cases h
  rw [State.react_block] at hidle
  cases hc with
  | resets => exact .inl rfl
  | timesOut => exact .inr (.inl rfl)
  | completes d _ _ hm =>
    obtain ⟨rfl, hlast, hcnt⟩ := marker_bytes_of_match hm
    exact .inr (.inr ⟨rfl, hlast, hcnt⟩)
  | receiveWaits _ _ hn => exact nomatch hb.symm.trans hn
  | starts _ _ hn => exact nomatch hb.symm.trans hn
  | reads _ hn => exact nomatch hb.symm.trans hn
  | stops _ hn => exact nomatch hb.symm.trans hn
  | restarts _ hn => exact nomatch hb.symm.trans hn
  | commandWaits _ _ _ _ _ _ _ hr => subst hr; exact nomatch hb.symm.trans hidle
  | nothing _ hr => subst hr; exact nomatch hb.symm.trans hidle
  | pushes _ _ _ _ hr => subst hr; exact nomatch hb.symm.trans hidle
  | ticks _ hr => subst hr; exact nomatch hb.symm.trans hidle

end Sys2Proof.Proofs.FrameAssemblerFamily

/-! SUPPORT. Proofs of the family 41_crc_validator.md: the shift register (R80), its table form (R81), the two operands
of the comparison (R82, R83), single changed bytes (R85), and sequences shorter than a frame (R84, 42_sample_decoder.md
R95). -/

namespace Sys2Proof.Machine

/-! ### The shift register (R80) -/

theorem crcShift_of_low_false {c : BitVec 16} (h : c.getLsbD 0 = false) : crcShift c = c >>> 1 :=
  if_neg (Bool.eq_false_iff.mp h)

theorem crcShift_of_low_true {c : BitVec 16} (h : c.getLsbD 0 = true) :
    crcShift c = (c >>> 1) ^^^ Config.crcPolyReflected :=
  if_pos h

/-- The bit shifted out comes back as the top bit, so a shift step loses nothing: the polynomial's top bit is set. -/
theorem getLsbD_crcShift_top (c : BitVec 16) : (crcShift c).getLsbD 15 = c.getLsbD 0 := by
  have htop : (c >>> 1).getLsbD 15 = false := by simp
  cases h : c.getLsbD 0 with
  | false => rw [crcShift_of_low_false h, htop]
  | true => rw [crcShift_of_low_true h, BitVec.getLsbD_xor, htop]; rfl

theorem crcShift_xor (a b : BitVec 16) : crcShift (a ^^^ b) = crcShift a ^^^ crcShift b := by
  unfold crcShift
  rw [BitVec.getLsbD_xor, BitVec.ushiftRight_xor_distrib]
  generalize a >>> 1 = x, b >>> 1 = y, Config.crcPolyReflected = p
  have hcancel : x ^^^ y = (x ^^^ p) ^^^ (y ^^^ p) := by
    rw [BitVec.xor_assoc, BitVec.xor_comm y p, ← BitVec.xor_assoc p p y, BitVec.xor_self, BitVec.zero_xor]
  cases a.getLsbD 0 <;> cases b.getLsbD 0
  case true.true => exact hcancel
  case false.false => rfl
  case false.true => exact BitVec.xor_assoc x y p
  case true.false =>
    change x ^^^ y ^^^ p = x ^^^ p ^^^ y
    ac_rfl

theorem eq_of_low_eq_of_ushiftRight_eq {a b : BitVec 16} (hlow : a.getLsbD 0 = b.getLsbD 0) (hhigh : a >>> 1 = b >>> 1) :
    a = b := by
  refine BitVec.eq_of_getLsbD_eq fun i _ => ?_
  cases i with
  | zero => exact hlow
  | succ k => simpa [Nat.add_comm] using congrArg (·.getLsbD k) hhigh

theorem crcShift_injective : Function.Injective crcShift := by
  intro a b h
  have hlow : a.getLsbD 0 = b.getLsbD 0 := by rw [← getLsbD_crcShift_top a, h, getLsbD_crcShift_top b]
  refine eq_of_low_eq_of_ushiftRight_eq hlow ?_
  cases hb : b.getLsbD 0 with
  | false => rwa [crcShift_of_low_false (hlow.trans hb), crcShift_of_low_false hb] at h
  | true =>
    rw [crcShift_of_low_true (hlow.trans hb), crcShift_of_low_true hb] at h
    exact (BitVec.xor_left_inj _).mp h

theorem crcShifts_xor (n : Nat) (a b : BitVec 16) : crcShifts n (a ^^^ b) = crcShifts n a ^^^ crcShifts n b := by
  induction n generalizing a b with
  | zero => rfl
  | succ n ih => rw [crcShifts, crcShift_xor, ih, crcShifts, crcShifts]

theorem crcShifts_injective (n : Nat) : Function.Injective (crcShifts n) := by
  induction n with
  | zero => exact Function.injective_id
  | succ n ih => exact ih.comp crcShift_injective

/-- Zero bits are shifted out without feedback. -/
theorem crcShifts_of_low_zero {n : Nat} {c : BitVec 16} (h : ∀ i < n, c.getLsbD i = false) :
    crcShifts n c = c >>> n := by
  induction n generalizing c with
  | zero => simp [crcShifts]
  | succ n ih =>
    have hshift : crcShift c = c >>> 1 := crcShift_of_low_false (h 0 (by omega))
    rw [crcShifts, hshift, ih fun i hi => ?_, ← BitVec.shiftRight_add, Nat.add_comm]
    rw [BitVec.getLsbD_ushiftRight]
    exact h (1 + i) (by omega)

/-! ### The table form (R81) -/

theorem xor_high_low (x : BitVec 16) : (x >>> 8 <<< 8) ^^^ (x.extractLsb' 0 8).setWidth 16 = x := by
  refine BitVec.eq_of_getLsbD_eq fun i hi => ?_
  by_cases h : i < 8
  · simp [h, hi]
  · simp [h, hi, show 8 + (i - 8) = i by omega]

/-- Eight shift steps: the low byte chooses the table entry, the high byte moves down. -/
theorem crcShifts_eight (x : BitVec 16) : crcShifts 8 x = (x >>> 8) ^^^ crcTable (x.extractLsb' 0 8) := by
  have hhigh : crcShifts 8 (x >>> 8 <<< 8) = x >>> 8 := by
    rw [crcShifts_of_low_zero fun i hi => by simp [hi]]
    ext i hi
    simpa using BitVec.lt_of_getLsbD
  calc crcShifts 8 x
      = crcShifts 8 ((x >>> 8 <<< 8) ^^^ (x.extractLsb' 0 8).setWidth 16) := by rw [xor_high_low]
    _ = crcShifts 8 (x >>> 8 <<< 8) ^^^ crcShifts 8 ((x.extractLsb' 0 8).setWidth 16) := crcShifts_xor 8 _ _
    _ = (x >>> 8) ^^^ crcTable (x.extractLsb' 0 8) := by rw [hhigh, crcTable]

theorem crcByte_eq_crcTableByte (c : BitVec 16) (b : Byte) : crcByte c b = crcTableByte c b := by
  have hhigh : (c ^^^ b.setWidth 16) >>> 8 = c >>> 8 := by
    ext i hi
    simp
  rw [crcByte, crcShifts_eight, hhigh, crcTableByte]

theorem crc16_eq_crc16ByTable (bs : List Byte) : crc16 bs = crc16ByTable bs := by
  rw [crc16, crc16ByTable, show crcByte = crcTableByte from funext₂ crcByte_eq_crcTableByte]

/-! ### The operands of the comparison (R82, R83) -/

theorem crcInput_eq (F : Frame) : crcInput F =
    [F[0], F[1], F[2], F[3], F[4], F[5], F[6], F[7], F[8], F[9], F[10], F[11], F[12], F[13]] := by
  have hofFn : crcInput F = List.ofFn fun i : Fin 14 => F[i] := by
    refine List.ext_getElem (by simp [crcInput, Config.crcCover]) fun i _ _ => ?_
    rw [List.getElem_ofFn]
    simp [crcInput]
  exact hofFn

theorem crcInput_length (F : Frame) : (crcInput F).length = 14 := by simp [crcInput_eq]

theorem memRead2_toNat (F : Frame) (addr : Nat) (h : addr + 2 ≤ 16) :
    (memRead2 F addr h).toNat = F[addr].toNat + 256 * F[addr + 1].toNat := by
  rw [memRead2, BitVec.toNat_append, ← Nat.shiftLeft_add_eq_or_of_lt F[addr].isLt, Nat.shiftLeft_eq]
  omega

theorem crcField_toNat (F : Frame) : (crcField F).toNat = F[14].toNat + 256 * F[15].toNat := memRead2_toNat F 14 _

theorem validate_iff (F : Frame) : validate F = true ↔ crc16 (crcInput F) = crcField F := beq_iff_eq

/-! ### A changed byte (R85) -/

theorem crcByte_injective_left (b : Byte) : Function.Injective (crcByte · b) :=
  fun _ _ h => (BitVec.xor_left_inj _).mp (crcShifts_injective 8 h)

theorem crcByte_injective_right (c : BitVec 16) : Function.Injective (crcByte c) := by
  intro a b h
  have hwide : a.setWidth 16 = b.setWidth 16 := (BitVec.xor_right_inj c).mp (crcShifts_injective 8 h)
  simpa using congrArg (BitVec.setWidth 8) hwide

theorem foldl_crcByte_injective (bs : List Byte) : Function.Injective (bs.foldl crcByte) := by
  induction bs with
  | nil => exact Function.injective_id
  | cons b bs ih => exact ih.comp (crcByte_injective_left b)

/-- The register differs after the changed byte, and the bytes that follow keep it different. -/
theorem foldl_crcByte_set_ne {bs : List Byte} {i : Nat} (hi : i < bs.length) {v : Byte} (hv : v ≠ bs[i])
    (c : BitVec 16) : (bs.set i v).foldl crcByte c ≠ bs.foldl crcByte c := by
  induction bs generalizing i c with
  | nil => exact nomatch hi
  | cons b bs ih =>
    cases i with
    | zero => exact (foldl_crcByte_injective bs).ne ((crcByte_injective_right c).ne hv)
    | succ k => exact ih (Nat.lt_of_succ_lt_succ hi) hv (crcByte c b)

theorem crc16_set_ne {bs : List Byte} {i : Nat} (hi : i < bs.length) {v : Byte} (hv : v ≠ bs[i]) :
    crc16 (bs.set i v) ≠ crc16 bs :=
  fun h => foldl_crcByte_set_ne hi hv Config.crcInit ((BitVec.xor_left_inj _).mp h)

theorem crcInput_set (F : Frame) {i : Nat} (hi : i < 16) (v : Byte) :
    crcInput (F.set i v) = (crcInput F).set i v := by
  rw [crcInput, Vector.toList_set, List.take_set, crcInput]

theorem crcField_set_of_lt (F : Frame) {i : Nat} (hi : i < 14) (v : Byte) : crcField (F.set i v) = crcField F := by
  apply BitVec.eq_of_toNat_eq
  rw [crcField_toNat, crcField_toNat, Vector.getElem_set_ne _ _ (by omega), Vector.getElem_set_ne _ _ (by omega)]

theorem crcField_set_ne {F : Frame} {i : Nat} (hlo : 14 ≤ i) (hi : i < 16) {v : Byte} (hv : v ≠ F[i]) :
    crcField (F.set i v) ≠ crcField F := by
  intro h
  have hnat := congrArg BitVec.toNat h
  rw [crcField_toNat, crcField_toNat] at hnat
  refine hv (BitVec.eq_of_toNat_eq ?_)
  obtain rfl | rfl : i = 14 ∨ i = 15 := by omega
  all_goals simpa using hnat

/-- Changing one byte of a valid frame, by any number of its bits, changes exactly one operand of the comparison. -/
theorem validate_set_of_ne {F : Frame} (hF : validate F = true) {i : Nat} (hi : i < 16) {v : Byte} (hv : v ≠ F[i]) :
    validate (F.set i v) = false := by
  rw [validate_iff] at hF
  rw [← Bool.not_eq_true, validate_iff, crcInput_set F hi]
  by_cases hlt : i < 14
  · rw [crcField_set_of_lt F hlt, ← hF]
    exact crc16_set_ne (by rwa [crcInput_length]) (by simpa [crcInput] using hv)
  · have hlen : (crcInput F).length ≤ i := by rw [crcInput_length]; omega
    rw [List.set_eq_of_length_le hlen, hF]
    exact (crcField_set_ne (by omega) hi hv).symm

theorem xor_one_shiftLeft_ne (b : Byte) (j : Fin 8) : b ^^^ (1#8 <<< j.val) ≠ b := by
  intro h
  have hbit := congrArg (·.getLsbD j) h
  simp at hbit

/-! ### Sequences of any length (R84, 42_sample_decoder.md R95) -/

theorem frameOfBytes_eq_none {bs : List Byte} (h : bs.length ≠ 16) : frameOfBytes bs = none := dif_neg h

theorem validateBytes_of_frame {bs : List Byte} {F : Frame} (h : frameOfBytes bs = some F) :
    validateBytes bs = validate F := by
  rw [validateBytes, h]

theorem validateBytes_of_no_frame {bs : List Byte} (h : frameOfBytes bs = none) : validateBytes bs = false := by
  rw [validateBytes, h]

theorem decodeBytes_of_no_frame {bs : List Byte} (h : frameOfBytes bs = none) (Z : Vector Int 6) :
    decodeBytes bs Z = .failure .fatalMalformed := by
  rw [decodeBytes, h]

end Sys2Proof.Machine

namespace Sys2Proof.Proofs.CrcValidatorFamily

open Sys2Proof.Machine

/-- Settles O30: the two forms agree byte by byte; the listed values are computed. -/
theorem crcTableFormEqualsTheLoop : Obligations.CrcTableFormEqualsTheLoop :=
  ⟨crc16_eq_crc16ByTable, by decide +kernel, by decide +kernel, rfl, by decide +kernel, by decide +kernel⟩

/-- Settles O31: both operands of the comparison, written out by the bytes of the frame. -/
theorem validateComparesLittleEndian : Obligations.ValidateComparesLittleEndian := by
  intro F
  rw [validate_iff, ← BitVec.toNat_inj, crcInput_eq, crcField_toNat]

/-- Settles O32: (a) the appended bytes are the field; (b) a flipped bit changes its byte, and no changed byte passes. -/
theorem crcAcceptsItsOwnAndDetectsEveryBitFlip : Obligations.CrcAcceptsItsOwnAndDetectsEveryBitFlip := by
  refine ⟨fun P hP => ?_, fun F i j hF => validate_set_of_ne hF i.isLt (xor_one_shiftLeft_ne F[i] j)⟩
  obtain ⟨F, hsome, hF⟩ := frameOfBytes_eq_some (bs := P ++ crcBytes (crc16 P)) (by simp [hP, crcBytes])
  rw [validateBytes_of_frame hsome]
  exact validate_of_toList_eq_append_crcBytes hP hF

/-- Settles O33: a sequence of another length than 16 is no frame. -/
theorem shortSequencesAreRejected : Obligations.ShortSequencesAreRejected := by
  intro bs Z hlen
  have hnone := frameOfBytes_eq_none (bs := bs) (by omega)
  exact ⟨validateBytes_of_no_frame hnone, decodeBytes_of_no_frame hnone Z⟩

end Sys2Proof.Proofs.CrcValidatorFamily

/-! SUPPORT. Proofs of the family 42_sample_decoder.md: rounding division in the three tie modes (R90), the decoder's
value from the bytes of the frame (R88, R91, R92), its ranges (R93), the real-number formula (R96), and the calibration
frame decoded against the reference it left (R97). -/

namespace Sys2Proof.Machine

/-! ### Rounding division, from the quotient and remainder (R90) -/

section QuotientRemainder

variable {n d q r : Int} (hn : n = q * d + r) (h0 : 0 ≤ r) (hr : r < d)

include hn h0 hr

theorem ediv_eq_quotient : n / d = q :=
  ((Int.ediv_emod_unique (by omega)).mpr ⟨by rw [hn]; ring, h0, hr⟩).1

theorem rdivBy_below_half (h : 2 * r < d) (ties : RoundTies) : rdivBy ties n d = q := by
  have hrem : n - q * d = r := by omega
  simp [rdivBy, ediv_eq_quotient hn h0 hr, hrem, h]

theorem rdivBy_above_half (h : d < 2 * r) (ties : RoundTies) : rdivBy ties n d = q + 1 := by
  have hrem : n - q * d = r := by omega
  simp [rdivBy, ediv_eq_quotient hn h0 hr, hrem, h, h.le]

theorem rdivBy_tie (h : 2 * r = d) (ties : RoundTies) : rdivBy ties n d =
    match ties with
    | .halfEven => if q % 2 = 0 then q else q + 1
    | .halfAway => if 0 ≤ n then q + 1 else q
    | .halfUp => q + 1 := by
  have hrem : n - q * d = r := by omega
  cases ties <;> simp [rdivBy, ediv_eq_quotient hn h0 hr, hrem, h]

end QuotientRemainder

/-! ### The tie mode in use: the nearest integer, the even one at a tie (R90) -/

/-- `k` is an integer nearest to `n / d`, and an even one where two are nearest. -/
structure NearestEven (n d k : Int) : Prop where
  lower : -d ≤ 2 * (n - d * k)
  upper : 2 * (n - d * k) ≤ d
  even_of_lower_tie : 2 * (n - d * k) = -d → k % 2 = 0
  even_of_upper_tie : 2 * (n - d * k) = d → k % 2 = 0

theorem rdiv_nearestEven (n : Int) {d : Int} (hd : 0 < d) : NearestEven n d (rdiv n d) := by
  obtain ⟨hlower, hupper⟩ := rdivBy_nearest Config.roundTies n hd
  have hn : n = n / d * d + n % d := (Int.ediv_mul_add_emod n d).symm
  have h0 := Int.emod_nonneg n hd.ne'
  have hr := Int.emod_lt_of_pos n hd
  have hq : d * (n / d) = n / d * d := Int.mul_comm _ _
  have hq1 : d * (n / d + 1) = n / d * d + d := by ring
  rcases lt_trichotomy (2 * (n % d)) d with h | h | h
  · have hk : rdiv n d = n / d := rdivBy_below_half hn h0 hr h _
    exact ⟨hlower, hupper, by rw [hk]; omega, by rw [hk]; omega⟩
  · have hk : rdiv n d = if n / d % 2 = 0 then n / d else n / d + 1 := rdivBy_tie hn h0 hr h _
    have heven : rdiv n d % 2 = 0 := by rw [hk]; split_ifs <;> omega
    exact ⟨hlower, hupper, fun _ => heven, fun _ => heven⟩
  · have hk : rdiv n d = n / d + 1 := rdivBy_above_half hn h0 hr h _
    exact ⟨hlower, hupper, by rw [hk]; omega, by rw [hk]; omega⟩

/-- Of two nearest integers the greater is the next one after the lesser, and both are ties: they are not both even. -/
theorem NearestEven.not_lt {n d k l : Int} (hd : 0 < d) (hk : NearestEven n d k) (hl : NearestEven n d l) : ¬k < l := by
  intro hlt
  have hstep : d * (k + 1) ≤ d * l := Int.mul_le_mul_of_nonneg_left hlt hd.le
  have hexpand : d * (k + 1) = d * k + d := by ring
  have hk_upper := hk.upper
  have hl_lower := hl.lower
  have hsucc : l = k + 1 := Int.eq_of_mul_eq_mul_left hd.ne' (by omega)
  have hk_even := hk.even_of_upper_tie (by omega)
  have hl_even := hl.even_of_lower_tie (by omega)
  omega

theorem rdiv_eq_iff_nearestEven {n d k : Int} (hd : 0 < d) : rdiv n d = k ↔ NearestEven n d k := by
  have hrdiv := rdiv_nearestEven n hd
  refine ⟨fun h => h ▸ hrdiv, fun hk => ?_⟩
  exact le_antisymm (not_lt.mp (hk.not_lt hd hrdiv)) (not_lt.mp (hrdiv.not_lt hd hk))

theorem rdiv_neg (n : Int) {d : Int} (hd : 0 < d) : rdiv (-n) d = -rdiv n d := by
  obtain ⟨hlower, hupper, hlower_tie, hupper_tie⟩ := rdiv_nearestEven n hd
  have hmirror : 2 * (-n - d * -rdiv n d) = -(2 * (n - d * rdiv n d)) := by ring
  rw [rdiv_eq_iff_nearestEven hd]
  constructor <;> omega

/-- What rounding leaves over rounds to zero: it is at most half of `d` in size, and zero is even. -/
theorem rdiv_sub_mul_rdiv (n : Int) {d : Int} (hd : 0 < d) : rdiv (n - d * rdiv n d) d = 0 := by
  obtain ⟨hlower, hupper, -, -⟩ := rdiv_nearestEven n hd
  rw [rdiv_eq_iff_nearestEven hd]
  constructor <;> omega

/-! ### The decoder's value (R88, R91, R92) -/

theorem scaleK_eq_ite (i : Nat) : scaleK i = if i < 3 then 10 else 1 := rfl

theorem difference_force (F : Frame) (Z : Vector Int 6) {i : Fin 6} (hi : i.val < 3) :
    difference F Z i = 10 * (rawField F i i.isLt - Z[i]) := by
  rw [difference, scaleK_eq_ite, if_pos hi]
  ring

theorem difference_torque (F : Frame) (Z : Vector Int 6) {i : Fin 6} (hi : ¬i.val < 3) :
    difference F Z i = rawField F i i.isLt - 10 * Z[i] := by
  rw [difference, scaleK_eq_ite, if_neg hi, one_mul]

theorem decodeFrame_eq_rdiv (F : Frame) (Z : Vector Int 6) (i : Fin 6) :
    (decodeFrame F Z)[i] = rdiv (difference F Z i) 10 := by
  simp [decodeFrame, decodeBy, rdiv]

theorem decodeFrame_force (F : Frame) (Z : Vector Int 6) {i : Fin 6} (hi : i.val < 3) :
    (decodeFrame F Z)[i] = rawField F i i.isLt - Z[i] := by
  rw [decodeFrame_eq_rdiv, difference_force F Z hi, rdiv_ten_mul]

theorem decodeFrame_torque (F : Frame) (Z : Vector Int 6) {i : Fin 6} (hi : ¬i.val < 3) :
    (decodeFrame F Z)[i] = rdiv (rawField F i i.isLt - 10 * Z[i]) 10 := by
  rw [decodeFrame_eq_rdiv, difference_torque F Z hi]

/-- R32, R54: the less significant byte of a field comes first, and the field is in two's complement. -/
theorem rawField_eq_bytes (F : Frame) (i : Fin 6) : rawField F i i.isLt =
    let n := F[2 + 2 * i.val].toNat + 256 * F[3 + 2 * i.val].toNat
    if n < 32768 then (n : Int) else (n : Int) - 65536 := by
  have hnext : F[2 + 2 * i.val + 1] = F[3 + 2 * i.val] := getElem_congr_idx (by omega)
  rw [rawField, BitVec.toInt_eq_toNat_cond, memRead2_toNat, hnext]
  dsimp only
  split_ifs <;> omega

/-! ### Ranges (R93) -/

theorem difference_force_bounds (F : Frame) {Z : Vector Int 6} {i : Fin 6} (hZ : -32768 ≤ Z[i] ∧ Z[i] ≤ 32767)
    (hi : i.val < 3) : -655350 ≤ difference F Z i ∧ difference F Z i ≤ 655350 := by
  have hraw := Safety.rawField_bounds F i i.isLt
  rw [difference_force F Z hi]
  omega

theorem difference_torque_bounds (F : Frame) {Z : Vector Int 6} {i : Fin 6} (hZ : -32768 ≤ Z[i] ∧ Z[i] ≤ 32767)
    (hi : ¬i.val < 3) : -360438 ≤ difference F Z i ∧ difference F Z i ≤ 360447 := by
  have hraw := Safety.rawField_bounds F i i.isLt
  rw [difference_torque F Z hi]
  omega

theorem decodeFrame_force_bounds (F : Frame) {Z : Vector Int 6} {i : Fin 6} (hZ : -32768 ≤ Z[i] ∧ Z[i] ≤ 32767)
    (hi : i.val < 3) : -65535 ≤ (decodeFrame F Z)[i] ∧ (decodeFrame F Z)[i] ≤ 65535 := by
  have hraw := Safety.rawField_bounds F i i.isLt
  rw [decodeFrame_force F Z hi]
  omega

theorem decodeFrame_torque_bounds (F : Frame) {Z : Vector Int 6} {i : Fin 6} (hZ : -32768 ≤ Z[i] ∧ Z[i] ≤ 32767)
    (hi : ¬i.val < 3) : -36044 ≤ (decodeFrame F Z)[i] ∧ (decodeFrame F Z)[i] ≤ 36045 := by
  have hdiff := difference_torque_bounds F hZ hi
  obtain ⟨hlower, hupper, -, -⟩ := rdiv_nearestEven (difference F Z i) (d := 10) (by decide)
  rw [decodeFrame_eq_rdiv]
  omega

theorem toSample_decodeFrame (F : Frame) {Z : Vector Int 6} {i : Fin 6} (hZ : -32768 ≤ Z[i] ∧ Z[i] ≤ 32767) :
    (toSample (decodeFrame F Z))[i].toInt = (decodeFrame F Z)[i] := by
  by_cases hi : i.val < 3
  · have hout := decodeFrame_force_bounds F hZ hi
    exact toInt_toSample (by omega) (by omega)
  · have hout := decodeFrame_torque_bounds F hZ hi
    exact toInt_toSample (by omega) (by omega)

theorem decodeFrame_zeroValues_force_bounds (F : Frame) {i : Fin 6} (hi : i.val < 3) :
    -32768 ≤ (decodeFrame F zeroValues)[i] ∧ (decodeFrame F zeroValues)[i] ≤ 32767 := by
  rw [decodeFrame_zeroValues, if_pos hi]
  exact Safety.rawField_bounds F i i.isLt

theorem toZeroRef_decodeFrame_zeroValues (F : Frame) (i : Fin 6) :
    (toZeroRef (decodeFrame F zeroValues))[i].toInt = (decodeFrame F zeroValues)[i] := by
  by_cases hi : i.val < 3
  · have hout := decodeFrame_zeroValues_force_bounds F hi
    exact Safety.toInt_toZeroRef (by omega) (by omega)
  · have hout := Safety.decodeFrame_zeroValues_torque_bounds F (Nat.not_lt.mp hi)
    exact Safety.toInt_toZeroRef (by omega) (by omega)

/-! ### The real-number formula (R89, R91, R96) -/

/-- The difference is the real formula in thousandths. -/
theorem raw_div_scale_sub_eq_difference (F : Frame) (Z : Vector Int 6) (i : Fin 6) :
    (rawField F i.val i.isLt : ℚ) / (if i.val < 3 then 100 else 1000) - (Z[i] : ℚ) / 100 =
      (difference F Z i : ℚ) / 1000 := by
  split_ifs with hi
  · rw [difference_force F Z hi]
    push_cast
    ring
  · rw [difference_torque F Z hi]
    push_cast
    ring

/-! ### The calibration frame against its own reference (R97 (b), 43_calibration.md R106) -/

theorem decodeFrame_ownReference (F : Frame) (i : Fin 6) :
    (decodeFrame F (refValues (toZeroRef (decodeFrame F zeroValues))))[i] = 0 := by
  rw [decodeFrame_refValues, toZeroRef_decodeFrame_zeroValues, decodeFrame_zeroValues]
  split_ifs
  · exact Int.sub_self _
  · exact rdiv_sub_mul_rdiv _ (by decide)

end Sys2Proof.Machine

namespace Sys2Proof.Proofs.SampleDecoderFamily

open Sys2Proof.Machine

/-- Settles O34: the three places of the remainder; the block's mode is half_even, whose choice is its own mirror. -/
theorem roundingDivisionRule : Obligations.RoundingDivisionRule := by
  refine ⟨fun n d q r hn h0 hr ties => ⟨?_, ?_, fun h => ⟨?_, ?_, ?_⟩⟩, fun n d => rfl, fun n d => rdiv_neg n⟩
  · exact fun h => rdivBy_below_half hn h0 hr h ties
  · exact fun h => rdivBy_above_half hn h0 hr h ties
  · exact rdivBy_tie hn h0 hr h .halfEven
  · exact rdivBy_tie hn h0 hr h .halfAway
  · exact rdivBy_tie hn h0 hr h .halfUp

/-- Settles O35: the hypothesis on `raw` makes it the frame's field, and the decoder's value is known from the field. -/
theorem decodeFormula : Obligations.DecodeFormula := by
  intro F Z raw hraw i
  have hfield : rawField F i i.isLt = raw[i] := (rawField_eq_bytes F i).trans (hraw i).symm
  refine ⟨?_, fun hi => ?_, fun hi => ?_⟩
  · rw [decodeFrame_eq_rdiv, difference, scaleK_eq_ite, hfield]
  · rw [decodeFrame_force F Z hi, hfield]
  · rw [decodeFrame_torque F Z (Nat.not_lt.mpr hi), hfield]

/-- Settles O36: the ranges for 16-bit references and for the zero reference, forces and torques apart. -/
theorem decodeNeverOverflows : Obligations.DecodeNeverOverflows := by
  refine ⟨fun F Z hZ i => ⟨fun hi => ?_, fun hi => ?_, toSample_decodeFrame F (hZ i)⟩, fun F i =>
    ⟨decodeFrame_zeroValues_force_bounds F, Safety.decodeFrame_zeroValues_torque_bounds F,
      toZeroRef_decodeFrame_zeroValues F i⟩⟩
  · obtain ⟨hlower, hupper⟩ := difference_force_bounds F (hZ i) hi
    exact ⟨hlower, hupper, decodeFrame_force_bounds F (hZ i) hi⟩
  · obtain ⟨hlower, hupper⟩ := difference_torque_bounds F (hZ i) (Nat.not_lt.mpr hi)
    exact ⟨hlower, hupper, decodeFrame_torque_bounds F (hZ i) (Nat.not_lt.mpr hi)⟩

/-- Settles O37: in thousandths, rounding the difference to hundredths moves it by at most 5. -/
theorem decodeIsTheNearestHundredth : Obligations.DecodeIsTheNearestHundredth := by
  intro F Z i
  obtain ⟨hlower, hupper, -, -⟩ := rdiv_nearestEven (difference F Z i) (d := 10) (by decide)
  rw [← decodeFrame_eq_rdiv] at hlower hupper
  have hlower' : (-10 : ℚ) ≤ 2 * (difference F Z i - 10 * (decodeFrame F Z)[i]) := mod_cast hlower
  have hupper' : (2 * (difference F Z i - 10 * (decodeFrame F Z)[i]) : ℚ) ≤ 10 := mod_cast hupper
  rw [raw_div_scale_sub_eq_difference, abs_le]
  constructor <;> linarith

/-- Settles O39: a force leaves `raw - raw`, a torque what rounding its reference left over. -/
theorem calibrationFrameReadsZero : Obligations.CalibrationFrameReadsZero := by
  intro F
  ext i hi
  rw [Vector.getElem_replicate]
  exact decodeFrame_ownReference F ⟨i, hi⟩

end Sys2Proof.Proofs.SampleDecoderFamily

/-! SUPPORT. Proofs of the family 43_calibration.md: the completions of the two calibration reads (R102 to R104), the
whole sequence from START to its response (R105), what writes ZREF (R100), and the capture read as a function of its
bytes (R106 (a)). -/

namespace Sys2Proof.Machine

/-! ### The captured reference and its copy in the response (R103) -/

/-- R93: the reading fits the 18 bits of a component as well as the 16 bits of an element of ZREF. -/
theorem toSample_decodeFrame_zeroValues (F : Frame) (i : Fin 6) :
    (toSample (decodeFrame F zeroValues))[i].toInt = (toZeroRef (decodeFrame F zeroValues))[i].toInt := by
  have hzero : zeroValues[i] = 0 := by simp [zeroValues]
  rw [toZeroRef_decodeFrame_zeroValues]
  exact toSample_decodeFrame F (by omega)

theorem toZeroRef_decodeFrame_of_wireFrame {F : Frame} {raw : Vector (BitVec 16) 6} (hF : F.toList = wireFrame raw)
    (i : Fin 6) :
    (toZeroRef (decodeFrame F zeroValues))[i].toInt =
      if i.val < 3 then raw[i].toInt else rdiv raw[i].toInt 10 := by
  rw [toZeroRef_decodeFrame_zeroValues, decodeFrame_zeroValues, rawField_of_wireFrame hF]

/-! ### Completion in CAL_CAPTURE, by outcome (R103, R104) -/

theorem completeCapture_of_valid {F : Frame} (h : validate F = true) (b : Block) :
    completeCapture b (.frame F) = captureReference b F := if_pos h

theorem completeCapture_of_invalid {F : Frame} (h : validate F = false) (b : Block) :
    completeCapture b (.frame F) = abortCalibration b .recCrc := if_neg (by simp [h])

theorem completeCapture_short (b : Block) : completeCapture b .short = abortCalibration b .recShort := rfl

theorem completeCapture_timeout (b : Block) : completeCapture b .timeout = abortCalibration b .recTimeout := rfl

/-! ### START in IDLE (45_session_commands.md R123) -/

theorem startSession_calibrated_of_idle {b : Block} (h : b.sess = .idle) :
    startSession b true = { block := { b with cnt := 0, sess := .calDiscard }, rsp := none } := by
  simp [startSession, h]

theorem startSession_uncalibrated_of_idle {b : Block} (h : b.sess = .idle) :
    startSession b false =
      respond { estStart { b with zref := zeroRef } with cnt := 0, sess := .ready } opStart .ok zeroSample 0 := by
  simp [startSession, h]

theorem perform_start_calibrated_of_idle {s : State} (hs : s.block.sess = .idle) :
    perform (.cmd 0x09#8) s =
      .next (s.react { block := { s.block with cnt := 0, sess := .calDiscard }, rsp := none }) := by
  have hb : busy s.block = false := (not_busy_iff _).mpr (.inl hs)
  have hexec : perform (.cmd 0x09#8) s = exec (.start true) s := perform_of_instr (Laws.RoundTrip.start true) s
  rw [hexec, exec_start, acceptCommand_of_not_busy hb, startSession_calibrated_of_idle hs]

/-! ### The two calibration reads (R102, R103, R105) -/

theorem readReaction_calDiscard {b : Block} (hs : b.sess = .calDiscard) (bs : List Byte) :
    readReaction b bs = completeDiscard { b with sr := readWindow b.sr bs } :=
  complete_of_calDiscard (by exact hs) _

theorem readReaction_calCapture_body {b : Block} (hs : b.sess = .calCapture) (raw : Vector (BitVec 16) 6) :
    readReaction b (bodyBytes raw) = captureReference { b with sr := readWindow b.sr (bodyBytes raw) }
      (candidateFrame (readWindow b.sr (bodyBytes raw))) := by
  have hvalid := validate_of_toList_eq_wireFrame (candidateFrame_readWindow_bodyBytes b.sr raw)
  rw [readReaction, if_pos (by simp), complete_of_calCapture (by exact hs), completeCapture_of_valid hvalid]

/-- R102, R123: START with calibration and a first read that ends at a marker lead to the capture read, unanswered. -/
theorem runWords_start_and_discard {s : State} {x : List Byte} (hs : s.block.sess = .idle)
    (hx : hasMarker x = false) :
    runWords ([.cmd 0x09#8] ++ byteWords (x ++ markerBytes)) s = .next {
      state := { s with
        block := { s.block with cnt := 0, sess := .calCapture, sr := readWindow s.block.sr x }
        rsp := none }
      responses := [] } := by
  have hstart := runWords_singleton (perform_start_calibrated_of_idle hs)
  have hread := runWords_read
    (s := s.react { block := { s.block with cnt := 0, sess := .calDiscard }, rsp := none }) rfl rfl hx
  rw [State.react_block, readReaction_calDiscard rfl] at hread
  exact runWords_append hstart hread

/-- R103: the capture read of a frame's body. -/
theorem runWords_capture_body {s : State} {raw : Vector (BitVec 16) 6} (hs : s.block.sess = .calCapture)
    (hc : s.block.cnt = 0) (hm : hasMarker (bodyBytes raw) = false) :
    ∃ F r, F.toList = wireFrame raw ∧ (captureReference s.block F).rsp = some r ∧
      runWords (bodyWords raw ++ markerWords) s = .next {
        state := s.react (withWindow (captureReference s.block F) (readWindow s.block.sr (bodyBytes raw)))
        responses := [r] } := by
  have hrun := runWords_read ((busy_iff _).mpr (.inr (.inl hs))) hc hm
  rw [readReaction_calCapture_body hs] at hrun
  have hwords : bodyWords raw ++ markerWords = byteWords (bodyBytes raw ++ markerBytes) :=
    (List.map_append ..).symm
  rw [hwords]
  exact ⟨_, _, candidateFrame_readWindow_bodyBytes s.block.sr raw, captureReference_rsp .., hrun⟩

/-! ### What writes the zero reference (R100) -/

theorem startSession_zref (b : Block) (cal : Bool) :
    (startSession b cal).block.zref = b.zref ∨
      (cal = false ∧ b.sess = .idle ∧ (startSession b cal).block.zref = zeroRef) := by
  by_cases hs : b.sess = .idle
  · cases cal with
    | true => rw [startSession_calibrated_of_idle hs]; exact .inl rfl
    | false => rw [startSession_uncalibrated_of_idle hs]; exact .inr ⟨rfl, hs, rfl⟩
  · rw [startSession_of_ne_idle hs]
    exact .inl rfl

@[simp] theorem beginRead_zref (b : Block) : (beginRead b).block.zref = b.zref := by
  unfold beginRead
  split_ifs <;> rfl

@[simp] theorem stopSession_zref (b : Block) : (stopSession b).block.zref = b.zref := by
  unfold stopSession
  split_ifs <;> rfl

@[simp] theorem restartRate_zref (b : Block) : (restartRate b).block.zref = b.zref := by
  unfold restartRate
  split_ifs <;> rfl

/-- Of the completions only the successful capture writes ZREF. -/
theorem complete_zref {b : Block} (o : ReadOutcome) (hb : busy b = true) :
    (complete b o).block.zref = b.zref ∨
      (b.sess = .calCapture ∧ ∃ F, o = .frame F ∧ validate F = true ∧ complete b o = captureReference b F) := by
  rcases complete_cases o hb with ⟨-, h⟩ | hcapture | ⟨-, st, -, h⟩ | ⟨-, F, -, -, h⟩ | ⟨-, st, -, h⟩
  · exact .inl (by rw [h, completeDiscard_zref])
  · exact .inr hcapture
  · exact .inl (by rw [h, abortCalibration_zref])
  · exact .inl (by rw [h, deliverSample_zref])
  · exact .inl (by rw [h, failRead_zref])

/-- A TIMEOUT brings no frame. -/
theorem complete_timeout_zref {b : Block} (hb : busy b = true) : (complete b .timeout).block.zref = b.zref := by
  rcases complete_zref .timeout hb with h | ⟨-, F, hF, -⟩
  · exact h
  · exact nomatch hF

end Sys2Proof.Machine

namespace Sys2Proof.Safety

open Sys2Proof.Machine

/-! ### The capture read in two blocks (R106 (a)) -/

/-- Two blocks that have accepted the same bytes since their capture reads began: both are still reading, with the same
bytes of the read, or both have ended it, alike in SESS and, when READY, in ZREF. -/
inductive SameCapture (b c : Block) : Prop
  | reading : b.sess = .calCapture → c.sess = .calCapture → b.cnt = c.cnt → SameReadBytes b.cnt b.sr c.sr →
      SameCapture b c
  | ended : busy b = false → b.sess = c.sess → (b.sess = .ready → b.zref = c.zref) → SameCapture b c

theorem SameCapture.sess_eq {b c : Block} (h : SameCapture b c) : b.sess = c.sess := by
  cases h with
  | reading hb hc => rw [hb, hc]
  | ended _ hsess => exact hsess

theorem SameCapture.zref_eq {b c : Block} (h : SameCapture b c) (hready : b.sess = .ready) : b.zref = c.zref := by
  cases h with
  | reading hb => rw [hb] at hready; cases hready
  | ended _ _ hzref => exact hzref hready

/-- A capture read that begins has no bytes yet. -/
theorem SameCapture.of_cnt_zero {b c : Block} (hb : b.sess = .calCapture) (hb0 : b.cnt = 0)
    (hc : c.sess = .calCapture) (hc0 : c.cnt = 0) : SameCapture b c := by
  refine .reading hb hc (hb0.trans hc0.symm) ?_
  rw [hb0]
  exact sameReadBytes_zero _ _

/-- Two reactions with one response, whose blocks are alike for the capture read. -/
def SameCaptureReaction (r r' : Reaction) : Prop := r.rsp = r'.rsp ∧ SameCapture r.block r'.block

theorem captureReference_sameCapture (b c : Block) (F : Frame) :
    SameCaptureReaction (captureReference b F) (captureReference c F) :=
  ⟨rfl, .ended rfl rfl fun _ => rfl⟩

theorem abortCalibration_sameCapture (b c : Block) (st : Status) :
    SameCaptureReaction (abortCalibration b st) (abortCalibration c st) :=
  ⟨rfl, .ended rfl rfl fun h => nomatch h⟩

/-- The outcome alone decides how the capture read ends. -/
theorem completeCapture_sameCapture (b c : Block) (o : ReadOutcome) :
    SameCaptureReaction (completeCapture b o) (completeCapture c o) := by
  cases o with
  | frame F =>
    cases hv : validate F with
    | true =>
      rw [completeCapture_of_valid hv, completeCapture_of_valid hv]
      exact captureReference_sameCapture b c F
    | false =>
      rw [completeCapture_of_invalid hv, completeCapture_of_invalid hv]
      exact abortCalibration_sameCapture b c .recCrc
  | short => exact abortCalibration_sameCapture b c .recShort
  | timeout => exact abortCalibration_sameCapture b c .recTimeout

theorem takeByte_sameCapture {b c : Block} (hb : b.sess = .calCapture) (hc : c.sess = .calCapture)
    (hcnt : b.cnt = c.cnt) (hsr : SameReadBytes b.cnt b.sr c.sr) (d : Byte) :
    SameCaptureReaction (takeByte b d) (takeByte c d) := by
  have hpush := hsr.srPush d
  have hmatch := hpush.markerMatch_eq
  have houtcome := hpush.matchOutcome_eq
  rcases takeByte_cases b d with ⟨hm, h⟩ | ⟨hm, h⟩ <;>
    rcases takeByte_cases c d with ⟨hm', h'⟩ | ⟨hm', h'⟩ <;> rw [← hcnt] at hm' h'
  · rw [h, h', houtcome, complete_of_calCapture (by exact hb), complete_of_calCapture (by exact hc)]
    exact completeCapture_sameCapture _ _ _
  · exact nomatch hm.symm.trans (hmatch.trans hm')
  · exact nomatch hm.symm.trans (hmatch.trans hm')
  · rw [h, h']
    exact ⟨rfl, .reading hb hc rfl hpush⟩

/-- A byte of the capture read is taken alike; a byte after its end is not accepted by either block. -/
theorem acceptReceive_takeByte_sameCapture {b c : Block} (h : SameCapture b c) (d : Byte) :
    SameCaptureReaction (acceptReceive b (takeByte b d)) (acceptReceive c (takeByte c d)) := by
  cases h with
  | reading hb hc hcnt hsr =>
    rw [acceptReceive_of_busy ((busy_iff b).mpr (.inr (.inl hb))),
      acceptReceive_of_busy ((busy_iff c).mpr (.inr (.inl hc)))]
    exact takeByte_sameCapture hb hc hcnt hsr d
  | ended hb hsess hzref =>
    rw [acceptReceive_of_not_busy hb, acceptReceive_of_not_busy ((busy_congr hsess).symm.trans hb)]
    exact ⟨rfl, .ended hb hsess hzref⟩

/-- The relation goes along whole byte sequences, with the same responses. -/
theorem runWords_byteWords_sameCapture (bs : List Byte) {s t : State} (h : SameCapture s.block t.block) :
    ∃ a c, runWords (byteWords bs) s = .next a ∧ runWords (byteWords bs) t = .next c ∧
      a.responses = c.responses ∧ SameCapture a.state.block c.state.block := by
  induction bs generalizing s t with
  | nil => exact ⟨_, _, runWords_nil s, runWords_nil t, rfl, h⟩
  | cons d ds ih =>
    obtain ⟨hrsp, hblock⟩ := acceptReceive_takeByte_sameCapture h d
    obtain ⟨a, c, ha, hc, hresponses, hend⟩ := ih
      (s := s.react (acceptReceive s.block (takeByte s.block d)))
      (t := t.react (acceptReceive t.block (takeByte t.block d))) hblock
    have hs := runWords_cons (rest := byteWords ds) ((perform_byte d s).trans (exec_byte d s))
    have ht := runWords_cons (rest := byteWords ds) ((perform_byte d t).trans (exec_byte d t))
    rw [ha] at hs
    rw [hc] at ht
    refine ⟨_, _, hs, ht, ?_, hend⟩
    rw [State.react_rsp, State.react_rsp, hrsp, hresponses]

end Sys2Proof.Safety

namespace Sys2Proof.Proofs.CalibrationFamily

open Sys2Proof.Machine Sys2Proof.Safety

/-- Settles O21: outcome by outcome; 16 and 18 bits hold every value decoded with no reference. -/
theorem completionInCalCapture : Obligations.CompletionInCalCapture := by
  intro b hs
  simp only [complete_of_calCapture hs]
  refine ⟨fun F hv => ?_, fun F hv => completeCapture_of_invalid hv b, completeCapture_short b,
    completeCapture_timeout b⟩
  exact ⟨_, _, completeCapture_of_valid hv b, rfl, rfl, rfl, fun i =>
    ⟨toZeroRef_decodeFrame_zeroValues F i, toSample_decodeFrame_zeroValues F i⟩⟩

/-- Settles O25: the discard read answers nothing, and the capture read's frame is the wire frame of `raw`. -/
theorem calibrationCapturesTheSecondRead : Obligations.CalibrationCapturesTheSecondRead := by
  intro s x raw hs hx hm
  have hdiscard := runWords_start_and_discard hs hx
  obtain ⟨F, r, hF, hr, hcapture⟩ := runWords_capture_body
    (s := { s with
      block := { s.block with cnt := 0, sess := .calCapture, sr := readWindow s.block.sr x }, rsp := none })
    rfl rfl hm
  have hrun := runWords_append hdiscard hcapture
  rw [← List.append_assoc] at hrun
  cases hr
  exact ⟨_, _, hrun, rfl, rfl, rfl, rfl, rfl, rfl, rfl, rfl, rfl, fun i =>
    ⟨toSample_decodeFrame_zeroValues F i, toZeroRef_decodeFrame_of_wireFrame hF i⟩⟩

/-- Settles O27: the two capture reads stay alike byte by byte, from CNT 0 on. -/
theorem calibrationIsAFunctionOfTheBytes : Obligations.CalibrationIsAFunctionOfTheBytes := by
  intro s t bs a c hs hs0 ht ht0 ha hc
  obtain ⟨a', c', ha', hc', hresponses, hend⟩ :=
    runWords_byteWords_sameCapture bs (SameCapture.of_cnt_zero hs hs0 ht ht0)
  cases ha.symm.trans ha'
  cases hc.symm.trans hc'
  exact ⟨hresponses, hend.sess_eq, hend.zref_eq⟩

/-- Settles O48: of the twelve cases of an event, those that write ZREF are RESET, START and a completing byte. -/
theorem zeroReferenceHasThreeWriters : Obligations.ZeroReferenceHasThreeWriters := by
  intro i s t h hne
  obtain ⟨r, rfl, hcase⟩ := exec_cases h
  rw [State.react_block] at hne ⊢
  cases hcase with
  | resets _ hr => subst hr; exact .inl ⟨rfl, rfl⟩
  | starts cal _ _ hr =>
    subst hr
    rcases startSession_zref s.block cal with hsame | ⟨rfl, hidle, hzero⟩
    · exact absurd hsame hne
    · exact .inr (.inl ⟨rfl, hidle, hzero⟩)
  | completes d _ hb hm hr =>
    subst hr
    rcases complete_zref (b := { s.block with sr := srPush s.block.sr d }) _ hb with hsame | ⟨hs, F, -, hv, hcapture⟩
    · exact absurd hsame hne
    · obtain ⟨rfl, -, -⟩ := marker_bytes_of_match hm
      rw [hcapture]
      exact .inr (.inr ⟨rfl, hs, rfl, F, hv, toZeroRef_decodeFrame_zeroValues F⟩)
  | timesOut _ hb hr => subst hr; exact absurd (complete_timeout_zref hb) hne
  | reads _ _ hr => subst hr; exact absurd (beginRead_zref _) hne
  | stops _ _ hr => subst hr; exact absurd (stopSession_zref _) hne
  | restarts _ _ hr => subst hr; exact absurd (restartRate_zref _) hne
  | commandWaits _ _ _ _ _ _ _ hr => subst hr; exact absurd rfl hne
  | receiveWaits _ _ _ _ hr => subst hr; exact absurd rfl hne
  | nothing _ hr => subst hr; exact absurd rfl hne
  | pushes _ _ _ _ hr => subst hr; exact absurd rfl hne
  | ticks _ hr => subst hr; exact absurd rfl hne

/-- Settles O20: the completion in CAL_DISCARD does not look at its outcome. -/
theorem completionInCalDiscard : Obligations.CompletionInCalDiscard :=
  fun _ o hs => complete_of_calDiscard hs o

end Sys2Proof.Proofs.CalibrationFamily

/-! SUPPORT. Proofs of the family 44_rate_estimator.md: TICK and the elapsed time (R110, R111), the recorded frequency
(R113, R114), and which events write TIME, START_T, COUNT and FREQ (R116). -/

namespace Sys2Proof.Machine

/-! ### TICK and the elapsed time (R110, R111) -/

/-- A trace of TICKs adds their number to TIME and does nothing else. -/
theorem runWords_tickWords (n : Nat) (s : State) : ∃ e, runWords (tickWords n) s = .next e ∧ e.responses = [] ∧
    e.state.block = { s.block with time := s.block.time + BitVec.ofNat 64 n } := by
  induction n with
  | zero => exact ⟨_, runWords_nil s, rfl, by simp⟩
  | succ n ih =>
    obtain ⟨e, hrun, hresponses, hblock⟩ := ih
    have hwords : tickWords (n + 1) = tickWords n ++ [.tick] := List.replicate_succ'
    rw [hwords, runWords_append_tick hrun]
    refine ⟨_, rfl, hresponses, ?_⟩
    simp [hblock, BitVec.ofNat_add, BitVec.add_assoc]

theorem elapsed_toNat (b : Block) : (elapsed b).toNat = (b.time.toNat + 2 ^ 64 - b.startT.toNat) % 2 ^ 64 := by
  rw [elapsed, BitVec.toNat_sub]
  congr 1
  omega

theorem elapsed_eq_zero_iff (b : Block) : elapsed b = 0 ↔ b.time = b.startT := sub_eq_zero

/-! ### The recorded frequency (R113, R114) -/

/-- Rounding a quotient by at least 1 stays between zero and the dividend. -/
theorem rdiv_bounds {n d : Int} (hn : 0 ≤ n) (hd : 0 < d) : 0 ≤ rdiv n d ∧ rdiv n d ≤ n := by
  obtain ⟨hlower, hupper⟩ := rdivBy_nearest Config.roundTies n hd
  rw [rdiv]
  constructor
  · by_contra hneg
    have hmul : d * rdivBy Config.roundTies n d ≤ d * (-1) := Int.mul_le_mul_of_nonneg_left (by omega) hd.le
    omega
  · by_contra hgt
    have hmul : d * (n + 1) ≤ d * rdivBy Config.roundTies n d := Int.mul_le_mul_of_nonneg_left (by omega) hd.le
    have hexpand : d * (n + 1) = d * n + d := by ring
    have hdn : 1 * n ≤ d * n := Int.mul_le_mul_of_nonneg_right hd hn
    omega

theorem toNat_ofInt_of_bounds {w : Nat} {k : Int} (h0 : 0 ≤ k) (h1 : k < 2 ^ w) :
    ((BitVec.ofInt w k).toNat : Int) = k := by
  rw [BitVec.toNat_ofInt, Int.toNat_of_nonneg (Int.emod_nonneg _ (by positivity))]
  exact Int.emod_eq_of_lt h0 (by exact_mod_cast h1)

theorem freqNext_zero (freq : BitVec 64) (count : BitVec 32) : freqNext freq count 0 = freq := if_pos rfl

/-- 64 bits hold the frequency: it is at most COUNT times TICK_HZ (R114). -/
theorem freqNext_toNat (freq : BitVec 64) (count : BitVec 32) {e : BitVec 64} (he : e ≠ 0) :
    ((freqNext freq count e).toNat : Int) = rdiv (count.toNat * Config.tickHz) e.toNat := by
  have hpos : 0 < (e.toNat : Int) := by
    have hne : e.toNat ≠ 0 := fun h => he (BitVec.eq_of_toNat_eq h)
    omega
  have hcount := count.isLt
  have hmax : (count.toNat * Config.tickHz : Int) < 2 ^ 64 := by
    rw [show (Config.tickHz : Int) = 1000000 from rfl]
    omega
  obtain ⟨hlo, hhi⟩ := rdiv_bounds (n := count.toNat * Config.tickHz) (by positivity) hpos
  rw [freqNext, if_neg he]
  exact toNat_ofInt_of_bounds hlo (by omega)

/-! ### What an event does to the estimator's registers (R116) -/

/-- The four registers of the estimator (R16 to R19). -/
structure Estimator where
  time : BitVec 64
  startT : BitVec 64
  count : BitVec 32
  freq : BitVec 64

/-- The estimator's part of the block. -/
def Block.estimator (b : Block) : Estimator := ⟨b.time, b.startT, b.count, b.freq⟩

end Sys2Proof.Machine

namespace Sys2Proof.Safety

open Sys2Proof.Machine

theorem not_answers_of_rsp_none {t : State} (h : t.rsp = none) (op : BitVec 3) (st : Status) : ¬Answers t op st := by
  rintro ⟨x, hx, -⟩
  exact nomatch h.symm.trans hx

theorem exec_tick_not_answers {s t : State} (h : exec .tick s = .next t) (op : BitVec 3) (st : Status) :
    ¬Answers t op st := by
  cases h
  exact not_answers_of_rsp_none rfl op st

/-- A step gives at most one answer. -/
theorem Answers.unique {t : State} {op op' : BitVec 3} {st st' : Status} (h : Answers t op st)
    (h' : Answers t op' st') : op = op' ∧ st = st' := by
  obtain ⟨x, hx, rfl, rfl⟩ := h
  obtain ⟨y, hy, rfl, rfl⟩ := h'
  cases hx.symm.trans hy
  exact ⟨rfl, rfl⟩

/-- What an event other than TICK and RESET does to the estimator of the block `b`, by its answer (R116). -/
inductive EstimatorEffect (b : Block) (t : State) : Prop
  /-- `est_record()`, at a READ answered OK (R113) -/
  | records : Answers t opRead .ok → t.block.estimator = (estRecord b).estimator → EstimatorEffect b t
  /-- `est_start()`, at a START or a RATE_RESTART answered OK (R112) -/
  | starts (op : BitVec 3) : op = opStart ∨ op = opRateRestart → Answers t op .ok →
      t.block.estimator = (estStart b).estimator → EstimatorEffect b t
  /-- nothing, where no command but a STOP is answered OK -/
  | keeps : (∀ op, Answers t op .ok → op = opStop) → t.block.estimator = b.estimator → EstimatorEffect b t

theorem EstimatorEffect.of_no_answer {b : Block} {t : State} (hrsp : t.rsp = none)
    (h : t.block.estimator = b.estimator) : EstimatorEffect b t :=
  .keeps (fun op ha => absurd ha (not_answers_of_rsp_none hrsp op .ok)) h

theorem EstimatorEffect.of_error {b : Block} {t : State} {x : Response} (hrsp : t.rsp = some x) (hx : x.status ≠ .ok)
    (h : t.block.estimator = b.estimator) : EstimatorEffect b t :=
  .keeps (fun _ ha => absurd (Answers.unique ⟨x, hrsp, rfl, rfl⟩ ha).2 hx) h

theorem startSession_estimatorEffect (s : State) (cal : Bool) :
    EstimatorEffect s.block (s.react (startSession s.block cal)) := by
  by_cases hs : s.block.sess = .idle
  · cases cal with
    | true => rw [startSession_calibrated_of_idle hs]; exact .of_no_answer rfl rfl
    | false => rw [startSession_uncalibrated_of_idle hs]; exact .starts _ (.inl rfl) ⟨_, rfl, rfl, rfl⟩ rfl
  · rw [startSession_of_ne_idle hs]
    exact .of_error rfl (by decide) rfl

theorem beginRead_estimatorEffect (s : State) : EstimatorEffect s.block (s.react (beginRead s.block)) := by
  unfold beginRead
  split_ifs
  · exact .of_no_answer rfl rfl
  · exact .of_error rfl (by decide) rfl

theorem stopSession_estimatorEffect (s : State) : EstimatorEffect s.block (s.react (stopSession s.block)) := by
  refine .keeps (fun op ha => (ha.unique ⟨_, rfl, rfl, rfl⟩).1) ?_
  rw [stopSession, State.react_block, respond_block]
  split_ifs <;> rfl

theorem restartRate_estimatorEffect (s : State) : EstimatorEffect s.block (s.react (restartRate s.block)) := by
  unfold restartRate
  split_ifs
  · exact .starts _ (.inr rfl) ⟨_, rfl, rfl, rfl⟩ rfl
  · exact .of_error rfl (by decide) rfl

theorem complete_estimatorEffect {s : State} (hb : busy s.block = true) (sr : Window) (o : ReadOutcome) :
    EstimatorEffect s.block (s.react (complete { s.block with sr := sr } o)) := by
  have herror {st : Status} (h : st = .recCrc ∨ st = .recShort ∨ st = .recTimeout) : st ≠ .ok := by
    rcases h with rfl | rfl | rfl <;> decide
  rcases complete_cases (b := { s.block with sr := sr }) o hb with
    ⟨-, h⟩ | ⟨-, F, -, -, h⟩ | ⟨-, st, hst, h⟩ | ⟨-, F, -, -, h⟩ | ⟨-, st, hst, h⟩ <;> rw [h]
  · exact .of_no_answer rfl rfl
  · exact .starts _ (.inl rfl) ⟨_, rfl, rfl, rfl⟩ rfl
  · exact .of_error rfl (herror hst) rfl
  · exact .records ⟨_, rfl, rfl, rfl⟩ rfl
  · exact .of_error rfl (herror hst) rfl

/-- Of the twelve cases of an event, every one but TICK and RESET leaves TIME alone, and the rest of the estimator moves
with the answer. -/
theorem exec_estimatorEffect {i : Instr} {s t : State} (h : exec i s = .next t) (htick : i ≠ .tick)
    (hreset : i ≠ .reset) : EstimatorEffect s.block t := by
  obtain ⟨r, rfl, hcase⟩ := exec_cases h
  cases hcase with
  | ticks => exact absurd rfl htick
  | resets => exact absurd rfl hreset
  | starts cal _ _ hr => subst hr; exact startSession_estimatorEffect s cal
  | reads _ _ hr => subst hr; exact beginRead_estimatorEffect s
  | stops _ _ hr => subst hr; exact stopSession_estimatorEffect s
  | restarts _ _ hr => subst hr; exact restartRate_estimatorEffect s
  | completes d _ hb _ hr => subst hr; exact complete_estimatorEffect hb _ _
  | timesOut _ hb hr => subst hr; exact complete_estimatorEffect hb s.block.sr _
  | commandWaits _ _ _ _ _ _ _ hr => subst hr; exact .of_no_answer rfl rfl
  | receiveWaits _ _ _ _ hr => subst hr; exact .of_no_answer rfl rfl
  | nothing _ hr => subst hr; exact .of_no_answer rfl rfl
  | pushes _ _ _ _ hr => subst hr; exact .of_no_answer rfl rfl

end Sys2Proof.Safety

namespace Sys2Proof.Proofs.RateEstimatorFamily

open Sys2Proof.Machine Sys2Proof.Safety

/-- Settles O42: the effect of an event on the four registers is fixed by its answer; a TICK answers nothing. -/
theorem estimatorIsWrittenOnlyByItsEvents : Obligations.EstimatorIsWrittenOnlyByItsEvents := by
  intro i s t h hreset
  by_cases htick : i = .tick
  · subst htick
    have hsilent := exec_tick_not_answers h
    cases h
    exact ⟨fun hne => absurd rfl hne, fun h2 => absurd h2 (hsilent _ _),
      fun h14 => (h14.elim (hsilent _ _) (hsilent _ _)).elim, fun _ _ _ => ⟨rfl, rfl, rfl⟩⟩
  · cases exec_estimatorEffect h htick hreset with
    | records hread hest =>
      obtain ⟨htime, hstart, hcount, -⟩ := Estimator.mk.inj hest
      refine ⟨fun _ => htime, fun _ => ⟨hstart, hcount⟩, fun h14 => ?_, fun h2 _ _ => absurd hread h2⟩
      rcases h14 with h1 | h4
      · exact absurd (hread.unique h1).1 (by decide)
      · exact absurd (hread.unique h4).1 (by decide)
    | starts op hop hans hest =>
      obtain ⟨htime, hstart, hcount, hfreq⟩ := Estimator.mk.inj hest
      have hanswers : Answers t 1 .ok ∨ Answers t 4 .ok := by
        rcases hop with rfl | rfl
        · exact .inl hans
        · exact .inr hans
      have hne : op ≠ opRead := by rcases hop with rfl | rfl <;> decide
      exact ⟨fun _ => htime, fun h2 => absurd (hans.unique h2).1 hne, fun _ => ⟨hstart, hcount, hfreq⟩,
        fun _ h1 h4 => (hanswers.elim h1 h4).elim⟩
    | keeps hstop hest =>
      obtain ⟨htime, hstart, hcount, hfreq⟩ := Estimator.mk.inj hest
      refine ⟨fun _ => htime, fun h2 => absurd (hstop _ h2) (by decide), fun h14 => ?_,
        fun _ _ _ => ⟨hstart, hcount, hfreq⟩⟩
      rcases h14 with h1 | h4
      · exact absurd (hstop _ h1) (by decide)
      · exact absurd (hstop _ h4) (by decide)

/-- Settles O40: the elapsed time is zero exactly when TIME = START_T, and 64 bits hold the rounded quotient. -/
theorem recordComputesTheRoundedRate : Obligations.RecordComputesTheRoundedRate := by
  intro b
  refine ⟨rfl, fun hzero => ?_, fun hne => ?_⟩
  · rw [estRecord_freq, (elapsed_eq_zero_iff b).mpr hzero, freqNext_zero]
  · rw [estRecord_freq, freqNext_toNat _ _ (mt (elapsed_eq_zero_iff b).mp hne), elapsed_toNat, BitVec.toNat_add]
    rfl

/-- Settles O41: n TICKs add n to TIME, and TIME - START_T was zero before them. -/
theorem elapsedCountsTheTicks : Obligations.ElapsedCountsTheTicks := by
  intro n s hstart
  obtain ⟨e, hrun, hresponses, hblock⟩ := runWords_tickWords n s
  refine ⟨e, hrun, hresponses, by rw [hblock], ?_⟩
  have helapsed : elapsed e.state.block = BitVec.ofNat 64 n := by
    rw [hblock, elapsed, hstart]
    exact add_sub_cancel_left _ _
  rw [helapsed, BitVec.toNat_ofNat]

/-- Settles O10: the pin's event, and its equation. -/
theorem tickIncrementsTime : Obligations.TickIncrementsTime :=
  ⟨Laws.RoundTrip.tick, fun s => ⟨_, exec_tick s, BitVec.toNat_add _ _, rfl⟩⟩

end Sys2Proof.Proofs.RateEstimatorFamily

/-! SUPPORT. Proofs of the family 45_session_commands.md: the commands in every session state (R120 to R127), the
completion of a steady-state read (R125), the transition table (R130), what a response carries (R128, R137), and the
registers no command observes outside a started session (93_implementation_defined.md U9). -/

namespace Sys2Proof.Machine

/-! ### The commands, by session state (R122 to R127) -/

theorem acceptCommand_unchanged (b : Block) : acceptCommand b (unchanged b) = unchanged b := ite_self _

theorem beginRead_of_ready {b : Block} (h : b.sess = .ready) :
    beginRead b = { block := { b with cnt := 0, sess := .reading }, rsp := none } := if_pos h

theorem beginRead_of_ne_ready {b : Block} (h : b.sess ≠ .ready) : beginRead b = raise b .fatalNotActive opRead :=
  if_neg h

theorem stopSession_of_ready {b : Block} (h : b.sess = .ready) :
    stopSession b = respond { b with sess := .stopped } opStop .ok zeroSample 0 := by
  rw [stopSession, if_pos h]

theorem stopSession_of_ne_ready {b : Block} (h : b.sess ≠ .ready) :
    stopSession b = respond b opStop .ok zeroSample 0 := by
  rw [stopSession, if_neg h]

theorem restartRate_of_ready {b : Block} (h : b.sess = .ready) :
    restartRate b = respond (estStart b) opRateRestart .ok zeroSample 0 := if_pos h

theorem restartRate_of_ne_ready {b : Block} (h : b.sess ≠ .ready) :
    restartRate b = raise b .fatalNotActive opRateRestart := if_neg h

/-! ### Completion in READING, by outcome (R125) -/

theorem completeReading_of_valid {F : Frame} (h : validate F = true) (b : Block) :
    completeReading b (.frame F) = deliverSample b F := if_pos h

theorem completeReading_of_invalid {F : Frame} (h : validate F = false) (b : Block) :
    completeReading b (.frame F) = failRead b .recCrc := if_neg (by simp [h])

theorem completeReading_short (b : Block) : completeReading b .short = failRead b .recShort := rfl

theorem completeReading_timeout (b : Block) : completeReading b .timeout = failRead b .recTimeout := rfl

/-- R93: 18 bits hold every component decoded against a reference of 16-bit elements. -/
theorem toSample_decodeFrame_zref (F : Frame) (z : ZeroRef) (i : Fin 6) :
    (toSample (decodeFrame F (refValues z)))[i].toInt = (decodeFrame F (refValues z))[i] := by
  have helem : (refValues z)[i] = z[i].toInt := by simp [refValues]
  have hlo := BitVec.le_toInt z[i]
  have hhi := BitVec.toInt_lt (x := z[i])
  exact toSample_decodeFrame F (by omega)

/-! ### Every word of the command port passes the acceptance test first (R120, R148) -/

/-- A command word, reserved or not, is accepted or not before anything else about it counts. -/
theorem perform_cmd_eq_acceptCommand (w : CommandWord) :
    ∃ f : Block → Reaction, ∀ s : State, perform (.cmd w) s = .next (s.react (acceptCommand s.block (f s.block))) := by
  cases hd : Sys2Proof.decode (.cmd w) with
  | rejected e =>
    obtain ⟨v⟩ := e
    exact ⟨fun b => raise b .fatalBadCmd (commandOp v), perform_of_reserved hd⟩
  | instr i =>
    have hencoded := cmd_eq_encode_of_decode hd
    cases i with
    | nop => exact ⟨unchanged, fun s => (perform_of_instr hd s).trans (exec_nop s)⟩
    | start cal => exact ⟨fun b => startSession b cal, fun s => (perform_of_instr hd s).trans (exec_start cal s)⟩
    | read => exact ⟨beginRead, fun s => (perform_of_instr hd s).trans (exec_read s)⟩
    | stop => exact ⟨stopSession, fun s => (perform_of_instr hd s).trans (exec_stop s)⟩
    | rateRestart => exact ⟨restartRate, fun s => (perform_of_instr hd s).trans (exec_rateRestart s)⟩
    | byte | timeout | tick | reset => exact nomatch hencoded

/-! ### The reference a START answers with (R103, R128) -/

/-- The sample of START OK is the new ZREF, sign-extended. -/
theorem toSample_decodeFrame_eq_signExtend (F : Frame) (i : Fin 6) :
    (toSample (decodeFrame F zeroValues))[i] = (toZeroRef (decodeFrame F zeroValues))[i].signExtend 18 := by
  apply BitVec.eq_of_toInt_eq
  rw [toSample_decodeFrame_zeroValues, BitVec.toInt_signExtend_of_le (by decide)]

theorem zeroSample_eq_signExtend (i : Fin 6) : zeroSample[i] = zeroRef[i].signExtend 18 := by
  simp [zeroSample, zeroRef]

end Sys2Proof.Machine

namespace Sys2Proof.Safety

open Sys2Proof.Machine

theorem statusClass_of_read_error {st : Status} (h : st = .recCrc ∨ st = .recShort ∨ st = .recTimeout) :
    statusClass st = .recoverable := by
  rcases h with rfl | rfl | rfl <;> rfl

/-! ### The transition table (R130) -/

/-- The rows of the transition table that move SESS, each with its response: the event `i` takes `s` to `t`. -/
inductive SessionMove (i : Instr) (s t : State) : Prop
  /-- RESET, from every state -/
  | resets : i = .reset → t.block.sess = .idle → t.rsp = none → SessionMove i s t
  /-- START(0) (R123) -/
  | starts : s.block.sess = .idle → i = .start false → t.block.sess = .ready → Answers t opStart .ok →
      SessionMove i s t
  /-- START(1) (R123) -/
  | calibrationBegins : s.block.sess = .idle → i = .start true → t.block.sess = .calDiscard → t.rsp = none →
      SessionMove i s t
  /-- the discard read ends (43_calibration.md R102) -/
  | discards : s.block.sess = .calDiscard → MayEndRead i → t.block.sess = .calCapture → t.rsp = none →
      SessionMove i s t
  /-- the capture read succeeds (43_calibration.md R103) -/
  | captures : s.block.sess = .calCapture → i = .byte 0x4E#8 → t.block.sess = .ready → Answers t opStart .ok →
      SessionMove i s t
  /-- the capture read fails (43_calibration.md R104) -/
  | aborts : s.block.sess = .calCapture → MayEndRead i → t.block.sess = .idle → AnswersRecoverable t opStart →
      SessionMove i s t
  /-- READ (R124) -/
  | readBegins : s.block.sess = .ready → i = .read → t.block.sess = .reading → t.rsp = none → SessionMove i s t
  /-- a steady-state read succeeds (R125) -/
  | delivers : s.block.sess = .reading → i = .byte 0x4E#8 → t.block.sess = .ready → Answers t opRead .ok →
      SessionMove i s t
  /-- a steady-state read fails (R125) -/
  | fails : s.block.sess = .reading → MayEndRead i → t.block.sess = .ready → AnswersRecoverable t opRead →
      SessionMove i s t
  /-- STOP (R126) -/
  | stops : s.block.sess = .ready → i = .stop → t.block.sess = .stopped → Answers t opStop .ok → SessionMove i s t

theorem startSession_sessionMove (s : State) (cal : Bool) :
    (startSession s.block cal).block.sess = s.block.sess ∨
      SessionMove (.start cal) s (s.react (startSession s.block cal)) := by
  by_cases hs : s.block.sess = .idle
  · cases cal with
    | true => rw [startSession_calibrated_of_idle hs]; exact .inr (.calibrationBegins hs rfl rfl rfl)
    | false => rw [startSession_uncalibrated_of_idle hs]; exact .inr (.starts hs rfl rfl ⟨_, rfl, rfl, rfl⟩)
  · rw [startSession_of_ne_idle hs]
    exact .inl rfl

theorem beginRead_sessionMove (s : State) :
    (beginRead s.block).block.sess = s.block.sess ∨ SessionMove .read s (s.react (beginRead s.block)) := by
  by_cases hs : s.block.sess = .ready
  · rw [beginRead_of_ready hs]
    exact .inr (.readBegins hs rfl rfl rfl)
  · rw [beginRead_of_ne_ready hs]
    exact .inl rfl

theorem stopSession_sessionMove (s : State) :
    (stopSession s.block).block.sess = s.block.sess ∨ SessionMove .stop s (s.react (stopSession s.block)) := by
  by_cases hs : s.block.sess = .ready
  · rw [stopSession_of_ready hs]
    exact .inr (.stops hs rfl rfl ⟨_, rfl, rfl, rfl⟩)
  · rw [stopSession_of_ne_ready hs]
    exact .inl rfl

@[simp] theorem restartRate_sess (b : Block) : (restartRate b).block.sess = b.sess := by
  unfold restartRate
  split_ifs <;> rfl

/-- Each way a read ends is a row of the table; only an outcome with a frame, so only a matching byte, ends it with OK. -/
theorem complete_sessionMove {i : Instr} {s : State} {o : ReadOutcome} (hb : busy s.block = true) (hi : MayEndRead i)
    (hframe : ∀ F, o = .frame F → i = .byte 0x4E#8) (sr : Window) :
    SessionMove i s (s.react (complete { s.block with sr := sr } o)) := by
  rcases complete_cases (b := { s.block with sr := sr }) o hb with
    ⟨hs, h⟩ | ⟨hs, F, hF, -, h⟩ | ⟨hs, st, hst, h⟩ | ⟨hs, F, hF, -, h⟩ | ⟨hs, st, hst, h⟩ <;> rw [h]
  · exact .discards hs hi rfl rfl
  · exact .captures hs (hframe F hF) rfl ⟨_, rfl, rfl, rfl⟩
  · exact .aborts hs hi rfl ⟨st, statusClass_of_read_error hst, _, rfl, rfl, rfl⟩
  · exact .delivers hs (hframe F hF) rfl ⟨_, rfl, rfl, rfl⟩
  · exact .fails hs hi rfl ⟨st, statusClass_of_read_error hst, _, rfl, rfl, rfl⟩

/-- Of the twelve cases of an event, each keeps SESS or is a row of the table. -/
theorem exec_sessionMove {i : Instr} {s t : State} (h : exec i s = .next t) :
    t.block.sess = s.block.sess ∨ SessionMove i s t := by
  obtain ⟨r, rfl, hcase⟩ := exec_cases h
  cases hcase with
  | commandWaits _ _ _ _ _ _ _ hr => subst hr; exact .inl rfl
  | receiveWaits _ _ _ _ hr => subst hr; exact .inl rfl
  | nothing _ hr => subst hr; exact .inl rfl
  | starts cal _ _ hr => subst hr; exact startSession_sessionMove s cal
  | reads _ _ hr => subst hr; exact beginRead_sessionMove s
  | stops _ _ hr => subst hr; exact stopSession_sessionMove s
  | restarts _ _ hr => subst hr; exact .inl (restartRate_sess s.block)
  | pushes _ _ _ _ hr => subst hr; exact .inl rfl
  | completes d _ hb hm hr =>
    subst hr
    obtain ⟨rfl, -, -⟩ := marker_bytes_of_match hm
    exact .inr (complete_sessionMove hb (.inr ⟨_, rfl⟩) (fun _ _ => rfl) _)
  | timesOut _ hb hr =>
    subst hr
    exact .inr (complete_sessionMove (o := .timeout) hb (.inl rfl) (fun _ hF => nomatch hF) s.block.sr)
  | ticks _ hr => subst hr; exact .inl rfl
  | resets _ hr => subst hr; exact .inr (.resets rfl rfl rfl)

/-! ### What a response carries (R128, R137) -/

/-- Which error status answers which opcode (R128). -/
inductive ErrorRow : Status → BitVec 3 → Prop
  /-- a read that failed, of a START or of a READ -/
  | recoverable {st op} : statusClass st = .recoverable → op = opStart ∨ op = opRead → ErrorRow st op
  /-- a command of a session that is not active -/
  | notActive {op} : op = opRead ∨ op = opRateRestart → ErrorRow .fatalNotActive op
  /-- START outside IDLE -/
  | badState : ErrorRow .fatalBadState opStart
  /-- a reserved command word -/
  | badCommand (op) : ErrorRow .fatalBadCmd op

theorem ErrorRow.status_ne_ok {st : Status} {op : BitVec 3} (h : ErrorRow st op) : st ≠ .ok := by
  rintro rfl
  cases h with
  | recoverable hclass => cases hclass

/-- The rows as alternatives. -/
theorem ErrorRow.alternatives {st : Status} {op : BitVec 3} (h : ErrorRow st op) :
    (statusClass st = .recoverable ∧ (op = 1 ∨ op = 2)) ∨ (st = .fatalNotActive ∧ (op = 2 ∨ op = 4)) ∨
      (st = .fatalBadState ∧ op = 1) ∨ st = .fatalBadCmd := by
  cases h with
  | recoverable hclass hop => exact .inl ⟨hclass, hop⟩
  | notActive hop => exact .inr (.inl ⟨rfl, hop⟩)
  | badState => exact .inr (.inr (.inl ⟨rfl, rfl⟩))
  | badCommand => exact .inr (.inr (.inr rfl))

/-- A response of the table of R128, given by a step that leaves the block `c`. -/
inductive TableResponse (c : Block) : Response → Prop
  | startOk {v : Sample} : (∀ i : Fin 6, v[i] = c.zref[i].signExtend 18) → TableResponse c ⟨opStart, .ok, v, 0⟩
  | readOk (v : Sample) : TableResponse c ⟨opRead, .ok, v, c.freq⟩
  | plainOk {op : BitVec 3} : op = opStop ∨ op = opRateRestart → TableResponse c ⟨op, .ok, zeroSample, 0⟩
  | error {st : Status} {op : BitVec 3} : ErrorRow st op → TableResponse c ⟨op, st, zeroSample, 0⟩

/-- A reaction is silent or gives a response of the table. -/
def AnswersByTable (r : Reaction) : Prop := ∀ x, r.rsp = some x → TableResponse r.block x

theorem answersByTable_of_silent {r : Reaction} (h : r.rsp = none) : AnswersByTable r :=
  fun _ hx => nomatch h.symm.trans hx

theorem answersByTable_of_some {r : Reaction} {x : Response} (h : r.rsp = some x) (hx : TableResponse r.block x) :
    AnswersByTable r := by
  intro y hy
  cases h.symm.trans hy
  exact hx

theorem raise_answersByTable {st : Status} {op : BitVec 3} (h : ErrorRow st op) (b : Block) :
    AnswersByTable (raise b st op) :=
  answersByTable_of_some rfl (.error h)

theorem startSession_answersByTable (b : Block) (cal : Bool) : AnswersByTable (startSession b cal) := by
  by_cases hs : b.sess = .idle
  · cases cal with
    | true => rw [startSession_calibrated_of_idle hs]; exact answersByTable_of_silent rfl
    | false =>
      rw [startSession_uncalibrated_of_idle hs]
      exact answersByTable_of_some rfl (.startOk zeroSample_eq_signExtend)
  · rw [startSession_of_ne_idle hs]
    exact raise_answersByTable .badState b

theorem beginRead_answersByTable (b : Block) : AnswersByTable (beginRead b) := by
  by_cases hs : b.sess = .ready
  · rw [beginRead_of_ready hs]
    exact answersByTable_of_silent rfl
  · rw [beginRead_of_ne_ready hs]
    exact raise_answersByTable (.notActive (.inl rfl)) b

theorem stopSession_answersByTable (b : Block) : AnswersByTable (stopSession b) :=
  answersByTable_of_some rfl (.plainOk (.inl rfl))

theorem restartRate_answersByTable (b : Block) : AnswersByTable (restartRate b) := by
  by_cases hs : b.sess = .ready
  · rw [restartRate_of_ready hs]
    exact answersByTable_of_some rfl (.plainOk (.inr rfl))
  · rw [restartRate_of_ne_ready hs]
    exact raise_answersByTable (.notActive (.inr rfl)) b

theorem complete_answersByTable {b : Block} (hb : busy b = true) (o : ReadOutcome) :
    AnswersByTable (complete b o) := by
  rcases complete_cases o hb with ⟨-, h⟩ | ⟨-, F, -, -, h⟩ | ⟨-, st, hst, h⟩ | ⟨-, F, -, -, h⟩ | ⟨-, st, hst, h⟩ <;>
    rw [h]
  · exact answersByTable_of_silent rfl
  · exact answersByTable_of_some rfl (.startOk (toSample_decodeFrame_eq_signExtend F))
  · exact raise_answersByTable (.recoverable (statusClass_of_read_error hst) (.inl rfl)) _
  · exact answersByTable_of_some rfl (.readOk _)
  · exact raise_answersByTable (.recoverable (statusClass_of_read_error hst) (.inr rfl)) _

theorem eventCase_answersByTable {s : State} {i : Instr} {r : Reaction} (h : EventCase s i r) : AnswersByTable r := by
  cases h with
  | commandWaits _ _ _ _ _ _ _ hr => subst hr; exact answersByTable_of_silent rfl
  | receiveWaits _ _ _ _ hr => subst hr; exact answersByTable_of_silent rfl
  | nothing _ hr => subst hr; exact answersByTable_of_silent rfl
  | starts cal _ _ hr => subst hr; exact startSession_answersByTable _ cal
  | reads _ _ hr => subst hr; exact beginRead_answersByTable _
  | stops _ _ hr => subst hr; exact stopSession_answersByTable _
  | restarts _ _ hr => subst hr; exact restartRate_answersByTable _
  | pushes _ _ _ _ hr => subst hr; exact answersByTable_of_silent rfl
  | completes _ _ hb _ hr => subst hr; exact complete_answersByTable (by exact hb) _
  | timesOut _ hb hr => subst hr; exact complete_answersByTable hb _
  | ticks _ hr => subst hr; exact answersByTable_of_silent rfl
  | resets _ hr => subst hr; exact answersByTable_of_silent rfl

/-- Every step, that of a reserved command word included, answers by the table. -/
theorem step_tableResponse {s t : State} {x : Response} (h : step s = .next t) (hx : t.rsp = some x) :
    TableResponse t.block x := by
  rcases step_cases h with ⟨-, rfl⟩ | ⟨_, _, i, -, -, hexec⟩ | ⟨_, _, w, -, -, rfl⟩
  · exact nomatch hx
  · obtain ⟨r, rfl, hcase⟩ := exec_cases hexec
    exact eventCase_answersByTable hcase x hx
  · dsimp only at hx
    split_ifs at hx
    cases hx
    exact .error (.badCommand _)

/-! ### Registers no command observes outside a started session (93_implementation_defined.md U9) -/

/-- Two reactions with one response and blocks related by `R`. -/
def SameResponse (R : Block → Block → Prop) (r r' : Reaction) : Prop := r.rsp = r'.rsp ∧ R r.block r'.block

theorem acceptCommand_sameResponse {R : Block → Block → Prop} {b c : Block} {r r' : Reaction} (hsess : b.sess = c.sess)
    (h : R b c) (hr : SameResponse R r r') : SameResponse R (acceptCommand b r) (acceptCommand c r') := by
  have hbusy := busy_congr hsess
  cases hb : busy b with
  | true => rw [acceptCommand_of_busy hb, acceptCommand_of_busy (hbusy.symm.trans hb)]; exact ⟨rfl, h⟩
  | false => rwa [acceptCommand_of_not_busy hb, acceptCommand_of_not_busy (hbusy.symm.trans hb)]

theorem acceptReceive_sameResponse {R : Block → Block → Prop} {b c : Block} {r r' : Reaction} (hsess : b.sess = c.sess)
    (h : R b c) (hr : busy b = true → SameResponse R r r') :
    SameResponse R (acceptReceive b r) (acceptReceive c r') := by
  have hbusy := busy_congr hsess
  cases hb : busy b with
  | true => rw [acceptReceive_of_busy hb, acceptReceive_of_busy (hbusy.symm.trans hb)]; exact hr hb
  | false => rw [acceptReceive_of_not_busy hb, acceptReceive_of_not_busy (hbusy.symm.trans hb)]; exact ⟨rfl, h⟩

theorem SameButUnobserved.refl (b : Block) : SameButUnobserved b b :=
  ⟨rfl, rfl, rfl, rfl, fun _ => ⟨rfl, rfl, rfl, rfl⟩⟩

theorem SameButUnobserved.sess_eq {b c : Block} (h : SameButUnobserved b c) : b.sess = c.sess := h.1

/-- In a started session every register is observed. -/
theorem SameButUnobserved.eq_of_started {b c : Block} (h : SameButUnobserved b c)
    (hs : sourceState b.sess = .started) : b = c := by
  obtain ⟨hsess, hcnt, hsr, htime, hregs⟩ := h
  obtain ⟨hzref, hstart, hcount, hfreq⟩ := hregs hs
  cases b
  cases c
  rw [Block.mk.injEq]
  exact ⟨hsess, hcnt, hsr, hzref, htime, hstart, hcount, hfreq⟩

theorem ne_ready_of_unstarted {b : Block} (hs : sourceState b.sess ≠ .started) : b.sess ≠ .ready :=
  fun h => hs (congrArg sourceState h)

section Unstarted

variable {b c : Block} (h : SameButUnobserved b c) (hs : sourceState b.sess ≠ .started)
include h

theorem raise_sameButUnobserved (st : Status) (op : BitVec 3) :
    SameResponse SameButUnobserved (raise b st op) (raise c st op) := ⟨rfl, h⟩

/-- START overwrites the four registers when it opens the session, and leaves it unopened otherwise. -/
theorem startSession_sameButUnobserved (cal : Bool) :
    SameResponse SameButUnobserved (startSession b cal) (startSession c cal) := by
  obtain ⟨hsess, -, hsr, htime, -⟩ := id h
  by_cases hidle : b.sess = .idle
  · have hidle' : c.sess = .idle := hsess.symm.trans hidle
    cases cal with
    | true =>
      rw [startSession_calibrated_of_idle hidle, startSession_calibrated_of_idle hidle']
      exact ⟨rfl, rfl, rfl, hsr, htime, fun hstarted => nomatch hstarted⟩
    | false =>
      rw [startSession_uncalibrated_of_idle hidle, startSession_uncalibrated_of_idle hidle']
      exact ⟨rfl, rfl, rfl, hsr, htime, fun _ => ⟨rfl, htime, rfl, rfl⟩⟩
  · rw [startSession_of_ne_idle hidle, startSession_of_ne_idle (hsess ▸ hidle)]
    exact raise_sameButUnobserved h _ _

/-- The capture read overwrites the four registers when it succeeds, and leads back to IDLE otherwise. -/
theorem completeCapture_sameButUnobserved (o : ReadOutcome) :
    SameResponse SameButUnobserved (completeCapture b o) (completeCapture c o) := by
  obtain ⟨-, -, hsr, htime, -⟩ := h
  have habort (st : Status) :
      SameResponse SameButUnobserved (abortCalibration b st) (abortCalibration c st) :=
    ⟨rfl, rfl, rfl, hsr, htime, fun hstarted => nomatch hstarted⟩
  cases o with
  | frame F =>
    cases hv : validate F with
    | true =>
      rw [completeCapture_of_valid hv, completeCapture_of_valid hv]
      exact ⟨rfl, rfl, rfl, hsr, htime, fun _ => ⟨rfl, htime, rfl, rfl⟩⟩
    | false =>
      rw [completeCapture_of_invalid hv, completeCapture_of_invalid hv]
      exact habort .recCrc
  | short => exact habort .recShort
  | timeout => exact habort .recTimeout

include hs

theorem beginRead_sameButUnobserved : SameResponse SameButUnobserved (beginRead b) (beginRead c) := by
  have hready := ne_ready_of_unstarted hs
  rw [beginRead_of_ne_ready hready, beginRead_of_ne_ready (h.sess_eq ▸ hready)]
  exact raise_sameButUnobserved h _ _

theorem stopSession_sameButUnobserved : SameResponse SameButUnobserved (stopSession b) (stopSession c) := by
  have hready := ne_ready_of_unstarted hs
  rw [stopSession_of_ne_ready hready, stopSession_of_ne_ready (h.sess_eq ▸ hready)]
  exact ⟨rfl, h⟩

theorem restartRate_sameButUnobserved : SameResponse SameButUnobserved (restartRate b) (restartRate c) := by
  have hready := ne_ready_of_unstarted hs
  rw [restartRate_of_ne_ready hready, restartRate_of_ne_ready (h.sess_eq ▸ hready)]
  exact raise_sameButUnobserved h _ _

theorem complete_sameButUnobserved (hb : busy b = true) (o : ReadOutcome) :
    SameResponse SameButUnobserved (complete b o) (complete c o) := by
  obtain ⟨hsess, -, hsr, htime, -⟩ := id h
  rcases (busy_iff b).mp hb with hd | hc | hr
  · rw [complete_of_calDiscard hd, complete_of_calDiscard (hsess.symm.trans hd)]
    exact ⟨rfl, rfl, rfl, hsr, htime, fun hstarted => nomatch hstarted⟩
  · rw [complete_of_calCapture hc, complete_of_calCapture (hsess.symm.trans hc)]
    exact completeCapture_sameButUnobserved h o
  · exact absurd (congrArg sourceState hr) hs

/-- The comparator and the outcome look at the window and CNT, which the two blocks share. -/
theorem takeByte_sameButUnobserved (hb : busy b = true) (d : Byte) :
    SameResponse SameButUnobserved (takeByte b d) (takeByte c d) := by
  obtain ⟨hsess, hcnt, hsr, htime, hregs⟩ := id h
  have hpush : srPush c.sr d = srPush b.sr d := by rw [hsr]
  have hnext : cntNext c.cnt = cntNext b.cnt := by rw [hcnt]
  rcases takeByte_cases b d with ⟨hm, e⟩ | ⟨hm, e⟩ <;>
    rcases takeByte_cases c d with ⟨hm', e'⟩ | ⟨hm', e'⟩ <;> rw [hpush, hnext] at hm' e'
  · rw [e, e']
    exact complete_sameButUnobserved (b := { b with sr := srPush b.sr d }) (c := { c with sr := srPush b.sr d })
      ⟨hsess, hcnt, rfl, htime, hregs⟩ hs hb _
  · exact nomatch hm.symm.trans hm'
  · exact nomatch hm.symm.trans hm'
  · rw [e, e']
    exact ⟨rfl, hsess, rfl, rfl, htime, hregs⟩

end Unstarted

/-- Event by event: the reactions of two blocks outside a started session. -/
theorem exec_sameButUnobserved_of_unstarted (i : Instr) {s t : State} (h : SameButUnobserved s.block t.block)
    (hs : sourceState s.block.sess ≠ .started) :
    ∃ r r', exec i s = .next (s.react r) ∧ exec i t = .next (t.react r') ∧ SameResponse SameButUnobserved r r' := by
  have hsess := h.sess_eq
  cases i with
  | nop => exact ⟨_, _, exec_nop s, exec_nop t, acceptCommand_sameResponse hsess h ⟨rfl, h⟩⟩
  | start cal =>
    exact ⟨_, _, exec_start cal s, exec_start cal t,
      acceptCommand_sameResponse hsess h (startSession_sameButUnobserved h cal)⟩
  | read =>
    exact ⟨_, _, exec_read s, exec_read t, acceptCommand_sameResponse hsess h (beginRead_sameButUnobserved h hs)⟩
  | stop =>
    exact ⟨_, _, exec_stop s, exec_stop t, acceptCommand_sameResponse hsess h (stopSession_sameButUnobserved h hs)⟩
  | rateRestart =>
    exact ⟨_, _, exec_rateRestart s, exec_rateRestart t,
      acceptCommand_sameResponse hsess h (restartRate_sameButUnobserved h hs)⟩
  | byte d =>
    exact ⟨_, _, exec_byte d s, exec_byte d t,
      acceptReceive_sameResponse hsess h fun hb => takeByte_sameButUnobserved h hs hb d⟩
  | timeout =>
    exact ⟨_, _, exec_timeout s, exec_timeout t,
      acceptReceive_sameResponse hsess h fun hb => complete_sameButUnobserved h hs hb .timeout⟩
  | tick =>
    obtain ⟨-, hcnt, hsr, htime, hregs⟩ := h
    exact ⟨_, _, exec_tick s, exec_tick t, rfl, hsess, hcnt, hsr, congrArg (· + 1) htime, hregs⟩
  | reset => exact ⟨_, _, exec_reset s, exec_reset t, rfl, SameButUnobserved.refl _⟩

theorem exec_sameButUnobserved (i : Instr) {s t : State} (h : SameButUnobserved s.block t.block) :
    ∃ r r', exec i s = .next (s.react r) ∧ exec i t = .next (t.react r') ∧ SameResponse SameButUnobserved r r' := by
  by_cases hs : sourceState s.block.sess = .started
  · obtain ⟨f, hf⟩ := exec_eq_react_of_block i
    exact ⟨_, _, hf s, hf t, by rw [h.eq_of_started hs], by rw [h.eq_of_started hs]; exact .refl _⟩
  · exact exec_sameButUnobserved_of_unstarted i h hs

end Sys2Proof.Safety

namespace Sys2Proof.Proofs.SessionCommandsFamily

open Sys2Proof.Machine Sys2Proof.Safety

/-- Settles O12: the acceptance test passes, and the command goes by SESS and `cal`. -/
theorem startEffect : Obligations.StartEffect := by
  refine ⟨fun cal => decode_encode (.start cal), fun s => ⟨fun hs => ?_, fun hs => ?_, fun hs cal => ?_⟩⟩
  · rw [exec_start, acceptCommand_of_not_busy ((not_busy_iff _).mpr (.inl hs)), startSession_uncalibrated_of_idle hs]
    rfl
  · rw [exec_start, acceptCommand_of_not_busy ((not_busy_iff _).mpr (.inl hs)), startSession_calibrated_of_idle hs]
    rfl
  · have hne : s.block.sess ≠ .idle := by rcases hs with hs | hs <;> simp [hs]
    rw [exec_start, acceptCommand_of_not_busy ((not_busy_iff _).mpr (.inr hs)), startSession_of_ne_idle hne]
    rfl

/-- Settles O13: the acceptance test passes, and only READY begins a read. -/
theorem readEffect : Obligations.ReadEffect := by
  refine ⟨decode_encode .read, fun s => ⟨fun hs => ?_, fun hs => ?_⟩⟩
  · rw [exec_read, acceptCommand_of_not_busy ((not_busy_iff _).mpr (.inr (.inl hs))), beginRead_of_ready hs]
    rfl
  · have hne : s.block.sess ≠ .ready := by rcases hs with hs | hs <;> simp [hs]
    rw [exec_read, acceptCommand_of_not_busy ((not_busy_iff _).mpr (hs.imp_right .inr)), beginRead_of_ne_ready hne]
    rfl

/-- Settles O14: the response is the same in READY and outside it; only in READY SESS is written. -/
theorem stopEffect : Obligations.StopEffect := by
  refine ⟨decode_encode .stop, fun s hb => ?_⟩
  rw [exec_stop, acceptCommand_of_not_busy hb]
  by_cases hs : s.block.sess = .ready
  · rw [stopSession_of_ready hs, if_pos hs]
    rfl
  · rw [stopSession_of_ne_ready hs, if_neg hs]
    rfl

/-- Settles O15: the acceptance test passes, and only READY restarts the estimator. -/
theorem rateRestartEffect : Obligations.RateRestartEffect := by
  refine ⟨decode_encode .rateRestart, fun s => ⟨fun hs => ?_, fun hs => ?_⟩⟩
  · rw [exec_rateRestart, acceptCommand_of_not_busy ((not_busy_iff _).mpr (.inr (.inl hs))), restartRate_of_ready hs]
    rfl
  · have hne : s.block.sess ≠ .ready := by rcases hs with hs | hs <;> simp [hs]
    rw [exec_rateRestart, acceptCommand_of_not_busy ((not_busy_iff _).mpr (hs.imp_right .inr)),
      restartRate_of_ne_ready hne]
    rfl

/-- Settles O18: every word of the command port goes through the acceptance test. -/
theorem commandNotAcceptedWhileBusy : Obligations.CommandNotAcceptedWhileBusy := by
  intro s w hb
  obtain ⟨f, hf⟩ := perform_cmd_eq_acceptCommand w
  rw [hf, acceptCommand_of_busy hb, react_unchanged]

/-- Settles O22: outcome by outcome; 18 bits hold every value decoded against a 16-bit reference. -/
theorem completionInReading : Obligations.CompletionInReading := by
  intro b hs
  simp only [complete_of_reading hs]
  exact ⟨fun F hv => ⟨_, completeReading_of_valid hv b, rfl, rfl, rfl, toSample_decodeFrame_zref F b.zref⟩,
    fun F hv => completeReading_of_invalid hv b, completeReading_short b, completeReading_timeout b⟩

/-- Settles O29: in a started session the two blocks are equal; outside it no event reads the four registers before it
has overwritten them. -/
theorem unstartedRegistersAreUnobservable : Obligations.UnstartedRegistersAreUnobservable := by
  intro i s t s' t' hst hs ht
  obtain ⟨r, r', hr, hr', hrsp, hblock⟩ := exec_sameButUnobserved i hst
  cases hs.symm.trans hr
  cases ht.symm.trans hr'
  exact ⟨hrsp, hblock⟩

/-- Settles O43: each row of the table is one of the ten alternatives. -/
theorem sessionChangesOnlyAlongTheTable : Obligations.SessionChangesOnlyAlongTheTable := by
  intro i s t h hne
  rcases exec_sessionMove h with hsame | hmove
  · exact absurd hsame hne
  · cases hmove with
    | resets hi ht hrsp => exact .inl ⟨hi, ht, hrsp⟩
    | starts hs hi ht ha => exact .inr (.inl ⟨hs, hi, ht, ha⟩)
    | calibrationBegins hs hi ht hrsp => exact .inr (.inr (.inl ⟨hs, hi, ht, hrsp⟩))
    | discards hs hi ht hrsp => exact .inr (.inr (.inr (.inl ⟨hs, hi, ht, hrsp⟩)))
    | captures hs hi ht ha => exact .inr (.inr (.inr (.inr (.inl ⟨hs, hi, ht, ha⟩))))
    | aborts hs hi ht ha => exact .inr (.inr (.inr (.inr (.inr (.inl ⟨hs, hi, ht, ha⟩)))))
    | readBegins hs hi ht hrsp => exact .inr (.inr (.inr (.inr (.inr (.inr (.inl ⟨hs, hi, ht, hrsp⟩))))))
    | delivers hs hi ht ha => exact .inr (.inr (.inr (.inr (.inr (.inr (.inr (.inl ⟨hs, hi, ht, ha⟩)))))))
    | fails hs hi ht ha => exact .inr (.inr (.inr (.inr (.inr (.inr (.inr (.inr (.inl ⟨hs, hi, ht, ha⟩))))))))
    | stops hs hi ht ha => exact .inr (.inr (.inr (.inr (.inr (.inr (.inr (.inr (.inr ⟨hs, hi, ht, ha⟩))))))))

/-- Settles O44: no row of the table but RESET begins in STOPPED, and STOPPED is not BUSY. -/
theorem stoppedIsTerminal : Obligations.StoppedIsTerminal := by
  intro i s t hs hreset h
  obtain ⟨r, rfl, hcase⟩ := exec_cases h
  rw [State.react_block]
  have hidle : busy s.block = false := (not_busy_iff _).mpr (.inr (.inr hs))
  have hready : s.block.sess ≠ .ready := by simp [hs]
  cases hcase with
  | resets => exact absurd rfl hreset
  | ticks _ hr => subst hr; rfl
  | starts cal _ _ hr => subst hr; rw [startSession_of_ne_idle (by simp [hs])]; rfl
  | reads _ _ hr => subst hr; rw [beginRead_of_ne_ready hready]; rfl
  | stops _ _ hr => subst hr; rw [stopSession_of_ne_ready hready]; rfl
  | restarts _ _ hr => subst hr; rw [restartRate_of_ne_ready hready]; rfl
  | commandWaits _ _ _ _ _ _ _ hr => subst hr; rfl
  | receiveWaits _ _ _ _ hr => subst hr; rfl
  | nothing _ hr => subst hr; rfl
  | pushes _ _ hb => exact nomatch hb.symm.trans hidle
  | completes _ _ hb => exact nomatch hb.symm.trans hidle
  | timesOut _ hb => exact nomatch hb.symm.trans hidle

/-- Settles O46: the responses of the table, kind by kind. -/
theorem responsesCarryWhatTheTableSays : Obligations.ResponsesCarryWhatTheTableSays := by
  intro s t r h hr
  have hdistinct : opStart ≠ opRead := by decide
  cases step_tableResponse h hr with
  | startOk hv =>
    exact ⟨.inl ⟨rfl, .inl rfl⟩, fun hno => absurd ⟨rfl, .inl rfl⟩ hno, fun _ => rfl, fun _ _ => hv,
      fun _ hop => absurd hop hdistinct⟩
  | readOk v =>
    exact ⟨.inl ⟨rfl, .inr (.inl rfl)⟩, fun hno => absurd ⟨rfl, .inr rfl⟩ hno, fun hno => absurd ⟨rfl, rfl⟩ hno,
      fun _ hop => absurd hop.symm hdistinct, fun _ _ => rfl⟩
  | plainOk hop =>
    rcases hop with rfl | rfl
    · exact ⟨.inl ⟨rfl, .inr (.inr (.inl rfl))⟩, fun _ => rfl, fun _ => rfl, fun _ hop => absurd hop (by decide),
        fun _ hop => absurd hop (by decide)⟩
    · exact ⟨.inl ⟨rfl, .inr (.inr (.inr rfl))⟩, fun _ => rfl, fun _ => rfl, fun _ hop => absurd hop (by decide),
        fun _ hop => absurd hop (by decide)⟩
  | error hrow =>
    exact ⟨.inr hrow.alternatives, fun _ => rfl, fun _ => rfl, fun hok => absurd hok hrow.status_ne_ok,
      fun hok => absurd hok hrow.status_ne_ok⟩

/-- Settles O9: accepted or not, NOP changes nothing. -/
theorem nopChangesNothing : Obligations.NopChangesNothing :=
  ⟨decode_encode .nop, fun s => by rw [exec_nop, acceptCommand_unchanged, react_unchanged]⟩

end Sys2Proof.Proofs.SessionCommandsFamily

/-! SUPPORT. Proofs of the family 60_exceptions.md: what a response of each class leaves of the block (R149, R137 to
R140). -/

namespace Sys2Proof.Safety

open Sys2Proof.Machine

/-! ### What an error leaves (R149) -/

/-- The ways an event can react in the block `b`, by the class of its answer (R149): an error is one `raise`, written
out with the block it starts from. -/
inductive ErrorEffect (b : Block) (r : Reaction) : Prop
  /-- no answer, so no error -/
  | silent : r.rsp = none → ErrorEffect b r
  /-- an answer OK, so no error -/
  | answersOk (x : Response) : r.rsp = some x → statusClass x.status = .ok → ErrorEffect b r
  /-- the capture read of a START failed (43_calibration.md R104); `sr` is the window with the completing byte -/
  | abortsStart (st : Status) (sr : Window) : statusClass st = .recoverable →
      r = raise { b with sr := sr, cnt := 0, sess := .idle } st opStart → ErrorEffect b r
  /-- a steady-state read failed (45_session_commands.md R125), with `sr` as above -/
  | failsRead (st : Status) (sr : Window) : statusClass st = .recoverable →
      r = raise { b with sr := sr, cnt := 0, sess := .ready } st opRead → ErrorEffect b r
  /-- the command is refused (R123, R124, R127) -/
  | refuses (st : Status) (op : BitVec 3) : statusClass st = .fatal → r = raise b st op → ErrorEffect b r

theorem startSession_errorEffect (b : Block) (cal : Bool) : ErrorEffect b (startSession b cal) := by
  by_cases hs : b.sess = .idle
  · cases cal with
    | true => rw [startSession_calibrated_of_idle hs]; exact .silent rfl
    | false => rw [startSession_uncalibrated_of_idle hs]; exact .answersOk _ rfl rfl
  · exact .refuses _ _ rfl (startSession_of_ne_idle hs cal)

theorem beginRead_errorEffect (b : Block) : ErrorEffect b (beginRead b) := by
  by_cases hs : b.sess = .ready
  · rw [beginRead_of_ready hs]
    exact .silent rfl
  · exact .refuses _ _ rfl (beginRead_of_ne_ready hs)

theorem restartRate_errorEffect (b : Block) : ErrorEffect b (restartRate b) := by
  by_cases hs : b.sess = .ready
  · rw [restartRate_of_ready hs]
    exact .answersOk _ rfl rfl
  · exact .refuses _ _ rfl (restartRate_of_ne_ready hs)

/-- The discard read answers nothing, and each of the other two reads answers OK or a recoverable status. -/
theorem complete_errorEffect {b : Block} (hb : busy b = true) (sr : Window) (o : ReadOutcome) :
    ErrorEffect b (complete { b with sr := sr } o) := by
  rcases complete_cases (b := { b with sr := sr }) o hb with
    ⟨-, h⟩ | ⟨-, F, -, -, h⟩ | ⟨-, st, hst, h⟩ | ⟨-, F, -, -, h⟩ | ⟨-, st, hst, h⟩ <;> rw [h]
  · exact .silent rfl
  · exact .answersOk _ rfl rfl
  · exact .abortsStart st sr (statusClass_of_read_error hst) rfl
  · exact .answersOk _ rfl rfl
  · exact .failsRead st sr (statusClass_of_read_error hst) rfl

/-- Of the twelve cases of an event, only an accepted command and the end of a read can answer. -/
theorem eventCase_errorEffect {s : State} {i : Instr} {r : Reaction} (h : EventCase s i r) :
    ErrorEffect s.block r := by
  cases h with
  | starts cal _ _ hr => subst hr; exact startSession_errorEffect _ cal
  | reads _ _ hr => subst hr; exact beginRead_errorEffect _
  | stops _ _ hr => subst hr; exact .answersOk _ rfl rfl
  | restarts _ _ hr => subst hr; exact restartRate_errorEffect _
  | completes _ _ hb _ hr => subst hr; exact complete_errorEffect hb _ _
  | timesOut _ hb hr => subst hr; exact complete_errorEffect hb s.block.sr _
  | commandWaits _ _ _ _ _ _ _ hr => subst hr; exact .silent rfl
  | receiveWaits _ _ _ _ hr => subst hr; exact .silent rfl
  | nothing _ hr => subst hr; exact .silent rfl
  | pushes _ _ _ _ hr => subst hr; exact .silent rfl
  | ticks _ hr => subst hr; exact .silent rfl
  | resets _ hr => subst hr; exact .silent rfl

/-- An answer of one class is none of another, so a recoverable one is an aborted START or a failed READ, and a fatal
one a refused command. -/
theorem ErrorEffect.block_of_answer {b : Block} {r : Reaction} {x : Response} (h : ErrorEffect b r)
    (hx : r.rsp = some x) :
    (statusClass x.status = .recoverable →
      r.block = { b with cnt := 0, sr := r.block.sr, sess := if x.op = opStart then .idle else .ready }) ∧
    (statusClass x.status = .fatal → r.block = b) := by
  cases h with
  | silent hnone => exact nomatch hnone.symm.trans hx
  | answersOk y hy hok =>
    cases hy.symm.trans hx
    exact ⟨fun hrec => (nomatch hok.symm.trans hrec), fun hfatal => (nomatch hok.symm.trans hfatal)⟩
  | abortsStart st sr hrec hr =>
    subst hr
    cases hx
    exact ⟨fun _ => rfl, fun hfatal => (nomatch hrec.symm.trans hfatal)⟩
  | failsRead st sr hrec hr =>
    subst hr
    cases hx
    exact ⟨fun _ => rfl, fun hfatal => (nomatch hrec.symm.trans hfatal)⟩
  | refuses st op hfatal hr =>
    subst hr
    cases hx
    exact ⟨fun hrec => (nomatch hfatal.symm.trans hrec), fun _ => rfl⟩

end Sys2Proof.Safety

namespace Sys2Proof.Proofs.ExceptionsFamily

open Sys2Proof.Machine Sys2Proof.Safety

/-- Settles O47: every error is one `raise`, recoverable at the end of a read, fatal at a refused command. -/
theorem errorsLeaveTheRestOfTheState : Obligations.ErrorsLeaveTheRestOfTheState := by
  intro i s t x h hx
  obtain ⟨r, rfl, hcase⟩ := exec_cases h
  exact (eventCase_errorEffect hcase).block_of_answer hx

end Sys2Proof.Proofs.ExceptionsFamily

/-! SUPPORT. Proofs of the model's interface for bare numbers of the opcode table (log entry 3). -/

namespace Sys2Proof.Machine

/-! ### Numbers of the opcode table -/

/-- A number decodes to an instruction through the input word it stands for, and in no other way. -/
theorem decodeTableWord_eq_some_iff {nbits w : Nat} {i : Instr} :
    decodeTableWord nbits w = some i ↔ ∃ x, tableInput nbits w = some x ∧ decode x = .instr i := by
  unfold decodeTableWord
  cases tableInput nbits w with
  | none => simp
  | some x => cases hx : decode x <;> simp [hx]

theorem withFetchWord_of_tableInput {nbits w : Nat} {x : InputWord} (h : tableInput nbits w = some x) (s : State) :
    s.withFetchWord nbits w = { s with input := x :: s.input } := by
  simp [State.withFetchWord, h]

end Sys2Proof.Machine

namespace Sys2Proof.Proofs.OtherFamily

open Sys2Proof.Machine

/-- Settles O5: the number's input word is placed at the head of the input, and the step takes it off again. -/
theorem tableWordRunsNext : Obligations.TableWordRunsNext := by
  intro s nbits w i h
  obtain ⟨x, hinput, hdecode⟩ := decodeTableWord_eq_some_iff.mp h
  rw [withFetchWord_of_tableInput hinput]
  exact step_of_instr rfl hdecode

end Sys2Proof.Proofs.OtherFamily
